-- ==== Sys2Proof/Word.lean ====
section
/-! DEFINITION. The word types of the block (00_scope.md R7): every value is an unsigned bit vector of a stated width. -/

namespace Sys2Proof

/-- A byte: the unit of every transfer (20_memory.md R62). -/
abbrev Byte := BitVec 8

/-- The width of `crc` and `last_crc` (00_scope.md R6, `WIDTH`). -/
abbrev Word := BitVec 32

/-- The width of `len` and `idx` (10_state.md R23, R25). -/
abbrev Count := BitVec 13

/-- The width of `idle` (10_state.md R24). -/
abbrev IdleCount := BitVec 9

/-- The width of `phase` (10_state.md R26). -/
abbrev PhaseBits := BitVec 3

/-- The selection word `sel[6:0]` (30_encoding.md R90). -/
abbrev SelWord := BitVec 7

end Sys2Proof
end

