-- ==== Sys2Proof/Config.lean ====
section
/-! DEFINITION. The constants of the block (00_scope.md R6), the phase numbers (10_state.md R26), the form of one move
of the environment, and the free values: opaque constants of which nothing can be proved. -/

namespace Sys2Proof

/-- `POLY` (00_scope.md R6): the generator polynomial, used with a left shift. -/
def Config.poly : Word := 0x04C11DB7#32

/-- `INIT_CRC` (00_scope.md R6). -/
def Config.initCrc : Word := 0xFFFFFFFF#32

/-- `FINAL_XOR` (00_scope.md R6). -/
def Config.finalXor : Word := 0xFFFFFFFF#32

/-- `MAX_DATA_LEN` (00_scope.md R6): the frame buffer's capacity in bytes. -/
def Config.maxDataLen : Nat := 4096

/-- `IDLE_THRESHOLD` (00_scope.md R6). -/
def Config.idleThreshold : Nat := 500

/-- `SLEEP_MS` (00_scope.md R6): milliseconds asked of each sleep. -/
def Config.sleepMs : Nat := 1

/-- `LASTCRC_RESET` (00_scope.md R6, 10_state.md R42, decision D8; log 3, unsafe with respect to the original firmware). -/
def Config.lastCrcReset : Word := 0x00000000#32

/-- DESIGN CHOICE (log 2, unsafe): the spec leaves `crc` unspecified after reset (10_state.md R42); the model names zero. -/
def Config.crcReset : Word := 0x00000000#32

/-- Phase 0 (10_state.md R26): about to send the startup banner. -/
@[simp] abbrev Phase.boot : PhaseBits := 0#3
/-- Phase 1: about to start a cycle. -/
@[simp] abbrev Phase.idle : PhaseBits := 1#3
/-- Phase 2: about to poll, or to end the collection. -/
@[simp] abbrev Phase.collect : PhaseBits := 2#3
/-- Phase 3: about to dispatch on the frame being empty or not. -/
@[simp] abbrev Phase.done : PhaseBits := 3#3
/-- Phase 4: about to consume the next frame byte, or to finish the CRC. -/
@[simp] abbrev Phase.crc : PhaseBits := 4#3
/-- Phase 5: about to report the new CRC. -/
@[simp] abbrev Phase.report : PhaseBits := 5#3

/-- One move of the environment, made before one operation of the block (70_reset_and_hazards.md R262; log 1, log 12).
The transport first loses bytes, then adds bytes; the rest of the move concerns the operation that follows. -/
structure EnvMove where
  /-- How many of the oldest queued bytes the transport has lost (20_memory.md R68; `RXQ` is open). -/
  lost : Nat
  /-- The bytes that have joined the RX queue, oldest first (10_state.md R36 a). -/
  arrive : List Byte
  /-- Whether the environment ends the send or the sleep of the operation (60_exceptions.md R233). -/
  grants : Bool
  /-- `some p`: reset comes in this step, after the operation has taken `p` of its actions on the ports
  (70_reset_and_hazards.md R250; log 7). -/
  rst : Option Nat
  deriving DecidableEq, Repr, Inhabited

/-- A move in which nothing arrives or is lost, every wait ends and no reset comes. -/
def EnvMove.quiet : EnvMove := { lost := 0, arrive := [], grants := true, rst := none }

/-- FREE VALUE (log 1): the environment's move before the `n`-th step, where the script of the state does not say it.
It has no body: the environment may answer any poll with any byte or none, end a wait or not, and reset at any moment. -/
opaque Config.environment : Nat → EnvMove

/-- FREE VALUE (log 4): what `FRAME[a]` holds after the `n`-th reset while nothing has written it
(10_state.md R42; 93_implementation_defined.md U2). -/
opaque Config.frameByte : Nat → Nat → Byte

end Sys2Proof
end

