-- ==== Sys2Proof/Syntax.lean ====
section
/-! DEFINITION. The operations (30_encoding.md R92), one constructor per row of spec/opcode_table.json, and the fields
of the selection word (30_encoding.md R90). -/

namespace Sys2Proof

/-- The ten operations of the block. None has an operand field: the table's rows hold only fixed bits and bits that the
row does not look at. -/
inductive Instr where
  /-- `BANNER` (42_sequencer_report.md R191). -/
  | banner
  /-- `CYCLE_START` (41_frame_collector.md R161). -/
  | cycleStart
  /-- `RX_BYTE` (41_frame_collector.md R163). -/
  | rxByte
  /-- `IDLE_TICK` (41_frame_collector.md R164). -/
  | idleTick
  /-- `COLLECT_END` (41_frame_collector.md R165). -/
  | collectEnd
  /-- `CRC_INIT` (40_crc32_engine.md R135). -/
  | crcInit
  /-- `REPORT_NODATA` (42_sequencer_report.md R193). -/
  | reportNodata
  /-- `CRC_BYTE` (40_crc32_engine.md R136). -/
  | crcByte
  /-- `CRC_FINAL` (40_crc32_engine.md R137). -/
  | crcFinal
  /-- `REPORT_UPDATED` (42_sequencer_report.md R194). -/
  | reportUpdated
  deriving DecidableEq, Repr, Inhabited

/-- The five fields of the selection word (30_encoding.md R90). -/
structure Sel where
  phase : PhaseBits
  cRun : Bool
  cRx : Bool
  cNonempty : Bool
  cMore : Bool
  deriving DecidableEq, Repr

end Sys2Proof
end

