-- ==== Sys2Proof/WellFormed.lean ====
section
/-! DEFINITION. Well-formedness. An operation has no operand, so every term of `Instr` is well-formed. A selection word
is well-formed when the block can form it: three checks. -/

namespace Sys2Proof

/-- Every operation is well-formed: it holds no field that could be out of range (30_encoding.md R92). -/
def Instr.wellFormed : Instr → Bool
  | .banner | .cycleStart | .rxByte | .idleTick | .collectEnd
  | .crcInit | .reportNodata | .crcByte | .crcFinal | .reportUpdated => true

/-- Phases 6 and 7 are reserved (30_encoding.md R93). -/
def Sel.phaseLegal (f : Sel) : Bool := decide (f.phase.toNat ≤ 5)

/-- `c_rx` is 0 where no poll is made: outside `COLLECT` and where `c_run` is 0 (30_encoding.md R91). -/
def Sel.rxSampled (f : Sel) : Bool := !f.cRx || (f.phase == Phase.collect && f.cRun)

/-- `c_more` says `idx < len`, so it implies `c_nonempty`, that is `len > 0` (10_state.md R29). -/
def Sel.moreNonempty (f : Sel) : Bool := !f.cMore || f.cNonempty

/-- The selection words that a state of the block can form. -/
def Sel.wellFormed (f : Sel) : Bool := f.phaseLegal && f.rxSampled && f.moreNonempty

end Sys2Proof
end

