-- ==== Sys2Proof/Decode.lean ====
section
/-! DEFINITION. The decoder of the selection word, from the operation table (30_encoding.md R90, R92, R93), and after it
the encoder. -/

namespace Sys2Proof

/-- The selection word of its fields: `{phase[2:0], c_run, c_rx, c_nonempty, c_more}` (30_encoding.md R90). -/
def Sel.word (f : Sel) : SelWord :=
  f.phase ++ BitVec.ofBool f.cRun ++ BitVec.ofBool f.cRx ++ BitVec.ofBool f.cNonempty ++ BitVec.ofBool f.cMore

/-- The fields of a selection word (30_encoding.md R90). -/
def Sel.ofWord (w : SelWord) : Sel :=
  { phase := w.extractLsb' 4 3
    cRun := w.getLsbD 3
    cRx := w.getLsbD 2
    cNonempty := w.getLsbD 1
    cMore := w.getLsbD 0 }

/-- One row of the operation table: the bits it fixes are those of `mask`, at the values of `pattern`. -/
structure OpRow where
  op : Instr
  pattern : SelWord
  mask : SelWord
  deriving DecidableEq, Repr

/-- The operation table (30_encoding.md R92), in the order of spec/opcode_table.json. -/
def opTable : List OpRow :=
  [ { op := .banner,        pattern := 0x00#7, mask := 0x70#7 },
    { op := .cycleStart,    pattern := 0x10#7, mask := 0x70#7 },
    { op := .rxByte,        pattern := 0x2C#7, mask := 0x7C#7 },
    { op := .idleTick,      pattern := 0x28#7, mask := 0x7C#7 },
    { op := .collectEnd,    pattern := 0x20#7, mask := 0x78#7 },
    { op := .crcInit,       pattern := 0x32#7, mask := 0x72#7 },
    { op := .reportNodata,  pattern := 0x30#7, mask := 0x72#7 },
    { op := .crcByte,       pattern := 0x41#7, mask := 0x71#7 },
    { op := .crcFinal,      pattern := 0x40#7, mask := 0x71#7 },
    { op := .reportUpdated, pattern := 0x50#7, mask := 0x70#7 } ]

/-- A row matches a word when `(sel & mask) == match` (30_encoding.md R90). -/
def OpRow.matches (r : OpRow) (w : SelWord) : Bool := w &&& r.mask == r.pattern

/-- Why bytes are no selection word of an operation. -/
inductive DecodeError where
  /-- There is no byte to read. Raised by `decodeBytes` alone; safe. -/
  | noWord
  /-- Bit 7 of the byte is set: a selection word has seven bits (30_encoding.md R90; log 18). Raised by `decodeBytes`; safe. -/
  | widerThanSeven
  /-- Phase 6 or 7: the word selects no operation (30_encoding.md R93). Raised by `decodeSel`; safe. -/
  | reservedPhase
  deriving DecidableEq, Repr

/-- The operation a selection word selects: that of the row which matches (30_encoding.md R92); the words no row matches
are those of phases 6 and 7 (R93, R94). -/
def decodeSel (w : SelWord) : Except DecodeError Instr :=
  match opTable.find? (fun r => r.matches w) with
  | some r => .ok r.op
  | none => .error .reservedPhase

/-- One operation from bytes: the selection word lies in the low seven bits of one byte, the top bit 0 (log 18). -/
def decodeBytes : List Byte → Except DecodeError (Instr × List Byte)
  | [] => .error .noWord
  | b :: rest =>
    if b.getLsbD 7 then .error .widerThanSeven
    else match decodeSel (b.setWidth 7) with
      | .ok i => .ok (i, rest)
      | .error e => .error e

/-- The operations of a list of selection words, one a byte: the `sel` column of a trace (30_encoding.md R107). -/
def decodeTrace : List Byte → Except DecodeError (List Instr)
  | [] => .ok []
  | b :: rest =>
    match decodeBytes [b] with
    | .error e => .error e
    | .ok (i, _) =>
      match decodeTrace rest with
      | .error e => .error e
      | .ok is => .ok (i :: is)

/-- What the decoder reads from a table word of `nbits` bits (the host's question). Every row is one word of seven bits,
asked as one byte; bits above `nbits` are 0. -/
def decodeTableWord (nbits w : Nat) : Option Instr :=
  let v := w % 2 ^ nbits
  if v < 256 then
    match decodeBytes [BitVec.ofNat 8 v] with
    | .ok (i, _) => some i
    | .error _ => none
  else none

/-- The bits that an operation's row fixes (30_encoding.md R92, column `mask`). -/
def Instr.mask : Instr → SelWord
  | .banner => 0x70#7
  | .cycleStart => 0x70#7
  | .rxByte => 0x7C#7
  | .idleTick => 0x7C#7
  | .collectEnd => 0x78#7
  | .crcInit => 0x72#7
  | .reportNodata => 0x72#7
  | .crcByte => 0x71#7
  | .crcFinal => 0x71#7
  | .reportUpdated => 0x70#7

/-- The selection word of an operation with every bit its row does not look at 0 (30_encoding.md R92, column `match`). -/
def encode : Instr → SelWord
  | .banner => 0b0000000#7
  | .cycleStart => 0b0010000#7
  | .rxByte => 0b0101100#7
  | .idleTick => 0b0101000#7
  | .collectEnd => 0b0100000#7
  | .crcInit => 0b0110010#7
  | .reportNodata => 0b0110000#7
  | .crcByte => 0b1000001#7
  | .crcFinal => 0b1000000#7
  | .reportUpdated => 0b1010000#7

/-- The selection word of an operation whose unread bits are those of `x`: a word the row matches whatever `x` is. -/
def encodeWith (i : Instr) (x : SelWord) : SelWord := encode i ||| (x &&& ~~~ i.mask)

/-- The byte that holds an operation's selection word (log 18). -/
def encodeByte (i : Instr) (x : SelWord) : Byte := (encodeWith i x).setWidth 8

/-- The mnemonic of an operation, as the table spells it (30_encoding.md R92, R107). -/
def Instr.mnemonic : Instr → String
  | .banner => "BANNER"
  | .cycleStart => "CYCLE_START"
  | .rxByte => "RX_BYTE"
  | .idleTick => "IDLE_TICK"
  | .collectEnd => "COLLECT_END"
  | .crcInit => "CRC_INIT"
  | .reportNodata => "REPORT_NODATA"
  | .crcByte => "CRC_BYTE"
  | .crcFinal => "CRC_FINAL"
  | .reportUpdated => "REPORT_UPDATED"

end Sys2Proof
end

