-- ==== Sys2Proof/Machine/State.lean ====
section
/-! DEFINITION. The state: the seven items of the block (10_state.md R20) and, beside them, what the model keeps for the
environment (10_state.md R36). All of it is plain data. -/

namespace Sys2Proof.Machine

/-- The stored cells of `FRAME` (10_state.md R27): pairs of an address and a byte, addresses strictly rising. A cell that
is not listed has never been written; it holds no stored value (10_state.md R42; log 4). -/
abbrev Memory := List Host.Cell

/-- The canonical form from an address on: addresses rise strictly and lie inside `FRAME`. No byte value is what an
unlisted cell holds, so no entry is redundant. -/
def Memory.wfFrom : Nat → Memory → Bool
  | _, [] => true
  | lo, (a, _) :: rest => decide (lo ≤ a) && decide (a < Config.maxDataLen) && Memory.wfFrom (a + 1) rest

/-- The canonical form of `FRAME`. -/
def Memory.wf (m : Memory) : Bool := Memory.wfFrom 0 m

/-- One record of the RES port (10_state.md R34, 30_encoding.md R106). -/
structure ResRecord where
  /-- `res_new`: 1 for `REPORT_UPDATED`, 0 for `REPORT_NODATA`. -/
  isNew : Bool
  /-- `res_crc[31:0]`. -/
  crc : Word
  deriving DecidableEq, Repr

/-- What the model keeps for the environment (10_state.md R36). The block reads it through the ports only. -/
structure Env where
  /-- The RX queue: bytes received and not yet taken, oldest first (10_state.md R36 a). -/
  rxQueue : List Byte
  /-- Time, as the nominal milliseconds of the sleeps completed (10_state.md R36 b; log 14). -/
  time : Nat
  /-- The TX stream: the bytes sent, in order (10_state.md R36 c). -/
  tx : List Byte
  /-- The RES stream: the records published, in order (20_memory.md R60 d). -/
  res : List ResRecord
  /-- Whether the environment ends the wait of the operation now performed (`tx_ready`, `slp_done`; log 6). -/
  grant : Bool
  /-- The operation the block is inside of, waiting for the sink or the timer (60_exceptions.md R233; log 6). -/
  pending : Option Instr
  /-- The MODEL's own: the moves of the environment known in advance, first move first (log 1). -/
  script : List EnvMove
  /-- The MODEL's own: how many moves the environment has made; the argument of the free moves (log 1). -/
  moves : Nat
  /-- The MODEL's own: how many reset events there were; the argument of the free cells (log 4). -/
  resets : Nat
  deriving DecidableEq, Repr

/-- The state of CRC32-CORE (10_state.md R20) and of its environment. -/
structure State where
  /-- The CRC working register (10_state.md R21). -/
  crc : Word
  /-- LastCRC, the last computed checksum (10_state.md R22). -/
  lastCrc : Word
  /-- The number of bytes collected in this cycle (10_state.md R23). -/
  len : Count
  /-- Unsuccessful polls since the last byte or the cycle start (10_state.md R24). -/
  idle : IdleCount
  /-- The index of the next frame byte the CRC pass consumes (10_state.md R25). -/
  idx : Count
  /-- The sequencer's phase, the program counter of the block (10_state.md R26). -/
  phase : PhaseBits
  /-- The frame buffer (10_state.md R27). -/
  frame : Memory
  /-- The environment (10_state.md R36). -/
  env : Env
  deriving DecidableEq, Repr

/-- Why the machine stops with a fault. The set of the hardware's own exceptions is empty (60_exceptions.md R220). -/
inductive Fault where
  /-- `MemRead` at an address outside `FRAME` (20_memory.md R63: a model may be partial there). Raised by `CRC_BYTE` where
  `idx > 4095`, which no run from reset reaches (10_state.md R44 e). Safe. -/
  | frameReadOutside (addr : Nat)
  /-- `MemWrite` at an address outside `FRAME` (20_memory.md R63). Raised by `RX_BYTE` where `len > 4095`, where the table
  does not select it (10_state.md R44 e). Safe. -/
  | frameWriteOutside (addr : Nat)
  deriving DecidableEq, Repr

/-- Why a step has no meaning. -/
inductive Refusal where
  /-- An operation that the model gives no meaning yet. Raised by `exec`'s arms only; safe. -/
  | notModelled (mnemonic : String)
  /-- The selection word has phase 6 or 7 (60_exceptions.md R232). Raised by `blockStep` and so by `step`; safe. -/
  | reservedPhase
  /-- The block takes no step, since the environment withholds what the operation waits for: the outcome "stuck"
  (60_exceptions.md R233, R235; 92_eei_decisions.md D25). Raised by `awaitEnv`, so by the five meanings that send or sleep
  and by `blockStep`. `step` never answers with it: there the environment's move stands alone (log 6). Safe. -/
  | stuck
  /-- `RX_BYTE` where the poll answers `None`: the table does not select it (30_encoding.md R92; log 9). Raised by
  `execRxByte`; `step` never asks for it. Safe. -/
  | noByteQueued
  /-- `IDLE_TICK` where the poll answers `Some(b)`: the table does not select it (30_encoding.md R92; log 9). Raised by
  `execIdleTick`; `step` never asks for it. Safe. -/
  | byteQueued
  deriving DecidableEq, Repr

/-! Updates of one field of the environment. -/

def Env.setRxQueue (e : Env) (v : List Byte) : Env := { e with rxQueue := v }
def Env.setTime (e : Env) (v : Nat) : Env := { e with time := v }
def Env.setTx (e : Env) (v : List Byte) : Env := { e with tx := v }
def Env.setRes (e : Env) (v : List ResRecord) : Env := { e with res := v }
def Env.setGrant (e : Env) (v : Bool) : Env := { e with grant := v }
def Env.setPending (e : Env) (v : Option Instr) : Env := { e with pending := v }
def Env.setScript (e : Env) (v : List EnvMove) : Env := { e with script := v }
def Env.setMoves (e : Env) (v : Nat) : Env := { e with moves := v }
def Env.setResets (e : Env) (v : Nat) : Env := { e with resets := v }

/-! Updates of one field of the state: the `<-` of the spec's pseudocode (00_scope.md R8). -/

def State.setCrc (s : State) (v : Word) : State := { s with crc := v }
def State.setLastCrc (s : State) (v : Word) : State := { s with lastCrc := v }
def State.setLen (s : State) (v : Count) : State := { s with len := v }
def State.setIdle (s : State) (v : IdleCount) : State := { s with idle := v }
def State.setIdx (s : State) (v : Count) : State := { s with idx := v }
def State.setPhase (s : State) (v : PhaseBits) : State := { s with phase := v }
def State.setFrame (s : State) (v : Memory) : State := { s with frame := v }
def State.setEnv (s : State) (v : Env) : State := { s with env := v }

/-- The environment right after power-up: nothing queued, sent, published or outstanding (log 11). -/
def Env.atPowerUp : Env :=
  { rxQueue := [], time := 0, tx := [], res := [], grant := true, pending := none, script := [], moves := 0,
    resets := 0 }

/-- The state right after reset (10_state.md R42, 70_reset_and_hazards.md R250). `crc` is unspecified there: the model
names `Config.crcReset` (log 2). `FRAME` is unspecified: no cell is listed (log 4). -/
def State.reset : State :=
  { crc := Config.crcReset, lastCrc := Config.lastCrcReset, len := 0#13, idle := 0#9, idx := 0#13, phase := Phase.boot,
    frame := [], env := Env.atPowerUp }

end Sys2Proof.Machine
end

