-- ==== Sys2Proof/Machine/Flags.lean ====
section
/-! DEFINITION. The four condition signals (10_state.md R29) and the selection of the next operation (30_encoding.md R90,
R91). The block stores no flag. -/

namespace Sys2Proof.Machine

/-- `c_run`: `idle < 500` and `len < 4096`, strict and unsigned (10_state.md R29, 41_frame_collector.md R162). -/
def cRun (s : State) : Bool :=
  decide (s.idle.toNat < Config.idleThreshold) && decide (s.len.toNat < Config.maxDataLen)

/-- A poll is made only in phase `COLLECT` with `c_run = 1` (30_encoding.md R91), once, before the operation it selects:
DEDUCED (log 22), none is made again while the block waits inside an operation. -/
def pollMade (s : State) : Bool := s.env.pending.isNone && (s.phase == Phase.collect && cRun s)

/-- `c_rx`: the poll answers `Some(_)`; 0 where no poll is made (10_state.md R29, 30_encoding.md R91). DEDUCED (log 22):
inside the sleep of an `IDLE_TICK` it stays 0, the answer of that operation's one poll, whatever has arrived since. -/
def cRx (s : State) : Bool := pollMade s && !s.env.rxQueue.isEmpty

/-- `c_nonempty`: `len > 0` (10_state.md R29). -/
def cNonempty (s : State) : Bool := decide (0 < s.len.toNat)

/-- `c_more`: `idx < len` (10_state.md R29). -/
def cMore (s : State) : Bool := decide (s.idx.toNat < s.len.toNat)

/-- The fields of the selection word in a state (30_encoding.md R90). -/
def selFields (s : State) : Sel :=
  { phase := s.phase, cRun := cRun s, cRx := cRx s, cNonempty := cNonempty s, cMore := cMore s }

/-- `sel[6:0]` in a state (30_encoding.md R90). -/
def selWord (s : State) : SelWord := (selFields s).word

/-- The operation of a step: none in a reserved phase, whatever is outstanding (60_exceptions.md R232; log 10); else the one
the block is inside of and waits in (R233), else the one the selection word selects (30_encoding.md R92). -/
def selected (s : State) : Except DecodeError Instr :=
  if 5 < s.phase.toNat then .error .reservedPhase
  else
    match s.env.pending with
    | some i => .ok i
    | none => decodeSel (selWord s)

/-- The collector's states in the source (10_state.md R26, 41_frame_collector.md R160). -/
inductive CollectorState where
  | idle
  | collecting
  | done
  deriving DecidableEq, Repr

/-- The collector's state as a view of `phase` (10_state.md R26); none for the reserved values. -/
def collectorState (p : PhaseBits) : Option CollectorState :=
  if p = Phase.boot ∨ p = Phase.idle then some .idle
  else if p = Phase.collect then some .collecting
  else if p = Phase.done ∨ p = Phase.crc ∨ p = Phase.report then some .done
  else none

end Sys2Proof.Machine
end

