-- ==== Sys2Proof/Machine/Operands.lean ====
section
/-! DEFINITION. Operand assembly: how a received byte enters the CRC register, how the result leaves it, and how a word
becomes report digits (30_encoding.md R96, R97, R101). -/

namespace Sys2Proof.Machine

/-- `reflect8(b)`: bit `i` of the result is bit `7 - i` of `b` (40_crc32_engine.md R130). -/
def reflect8 (b : Byte) : Byte := b.reverse

/-- `reflect32(v)`: bit `i` of the result is bit `31 - i` of `v` (40_crc32_engine.md R131). -/
def reflect32 (v : Word) : Word := v.reverse

/-- The word a frame byte is XORed into the register as: `zext_32(reflect8(b)) << 24` (30_encoding.md R96). -/
def byteOperand (b : Byte) : Word := (reflect8 b).setWidth 32 <<< 24

/-- The result that leaves the register: `reflect32(crc) ^ 0xFFFFFFFF` (30_encoding.md R97). -/
def crcResult (c : Word) : Word := reflect32 c ^^^ Config.finalXor

/-- `d(n)`: the character of one hex digit, upper case (30_encoding.md R101). -/
def hexDigit (n : BitVec 4) : Byte :=
  if n.toNat < 10 then 0x30#8 + n.setWidth 8 else 0x41#8 + (n.setWidth 8 - 10#8)

/-- `hex8(v)`: eight digits, `v[31:28]` first (30_encoding.md R101). -/
def hex8 (v : Word) : List Byte :=
  [ hexDigit (v.extractLsb' 28 4), hexDigit (v.extractLsb' 24 4), hexDigit (v.extractLsb' 20 4),
    hexDigit (v.extractLsb' 16 4), hexDigit (v.extractLsb' 12 4), hexDigit (v.extractLsb' 8 4),
    hexDigit (v.extractLsb' 4 4), hexDigit (v.extractLsb' 0 4) ]

end Sys2Proof.Machine
end

