-- ==== Sys2Proof/Machine/Messages.lean ====
section
/-! DEFINITION. The messages on TX, byte for byte (30_encoding.md R100 to R105; log 15). -/

namespace Sys2Proof.Machine

/-- `BANNER_MSG`, 35 bytes (30_encoding.md R100). -/
def bannerMsg : List Byte :=
  [0x53, 0x65, 0x71, 0x75, 0x65, 0x6E, 0x74, 0x69, 0x61, 0x6C, 0x20, 0x43, 0x52, 0x43, 0x20, 0x43, 0x61, 0x6C] ++
  [0x63, 0x75, 0x6C, 0x61, 0x74, 0x6F, 0x72, 0x20, 0x53, 0x74, 0x61, 0x72, 0x74, 0x65, 0x64, 0x0D, 0x0A]

/-- `READY_MSG`, 26 bytes (30_encoding.md R100). -/
def readyMsg : List Byte :=
  [0x55, 0x41, 0x52, 0x54, 0x20, 0x52, 0x65, 0x61, 0x64, 0x79, 0x2E, 0x20, 0x53, 0x65, 0x6E, 0x64, 0x20, 0x64] ++
  [0x61, 0x74, 0x61, 0x2E, 0x2E, 0x2E, 0x0D, 0x0A]

/-- `UPDATED_PFX`, 26 bytes (30_encoding.md R100). -/
def updatedPfx : List Byte :=
  [0x55, 0x70, 0x64, 0x61, 0x74, 0x65, 0x64, 0x20, 0x43, 0x52, 0x43, 0x20, 0x69, 0x6E, 0x20, 0x48, 0x65, 0x78] ++
  [0x20, 0x69, 0x73, 0x20, 0x3A, 0x20, 0x30, 0x78]

/-- `NODATA_PFX`, 52 bytes (30_encoding.md R100). -/
def nodataPfx : List Byte :=
  [0x4E, 0x6F, 0x20, 0x44, 0x61, 0x74, 0x61, 0x20, 0x52, 0x65, 0x63, 0x65, 0x69, 0x76, 0x65, 0x64, 0x2C, 0x20] ++
  [0x4C, 0x61, 0x73, 0x74, 0x20, 0x43, 0x61, 0x6C, 0x63, 0x75, 0x6C, 0x61, 0x74, 0x65, 0x64, 0x20, 0x43, 0x52] ++
  [0x43, 0x20, 0x69, 0x6E, 0x20, 0x48, 0x65, 0x78, 0x20, 0x69, 0x73, 0x20, 0x3A, 0x20, 0x30, 0x78]

/-- `CRLF`, 2 bytes (30_encoding.md R100). -/
def crlf : List Byte := [0x0D, 0x0A]

/-- `UPDATED_MSG(v)`, 36 bytes (30_encoding.md R102). -/
def updatedMsg (v : Word) : List Byte := updatedPfx ++ hex8 v ++ crlf

/-- `NODATA_MSG(v)`, 62 bytes (30_encoding.md R103). -/
def nodataMsg (v : Word) : List Byte := nodataPfx ++ hex8 v ++ crlf

/-- The TX text of a report as a function of its RES record (30_encoding.md R106). -/
def reportMsg (r : ResRecord) : List Byte := if r.isNew then updatedMsg r.crc else nodataMsg r.crc

end Sys2Proof.Machine
end

