-- ==== Sys2Proof/Machine/Ops.lean ====
section
/-! DEFINITION. The named operations over memory, ports and registers (00_scope.md R8), the environment's move, and the
reset event. The block has no exception to take and none to return from (60_exceptions.md R220, R225, R226); the reset
event is the one thing that breaks into its loop (70_reset_and_hazards.md R250). -/

namespace Sys2Proof.Machine

/-! ### The frame buffer -/

/-- The stored value of a cell, none if nothing has written it. -/
def Memory.read? : Memory → Nat → Option Byte
  | [], _ => none
  | (b, w) :: rest, a => if a = b then some w else Memory.read? rest a

/-- Store a byte, keeping the canonical form. -/
def Memory.write : Memory → Nat → Byte → Memory
  | [], a, v => [(a, v)]
  | (b, w) :: rest, a, v =>
    if a < b then (a, v) :: (b, w) :: rest
    else if a = b then (a, v) :: rest
    else (b, w) :: Memory.write rest a v

/-- `FRAME[a]`: the stored byte, or a free byte where nothing has written the cell (10_state.md R42; log 4). -/
def cell (s : State) (a : Nat) : Byte := (s.frame.read? a).getD (Config.frameByte s.env.resets a)

/-- `MemRead(a, 1)` (20_memory.md R63). An address outside 0..4095 does not exist: a fault (log 5). -/
def memRead (s : State) (a : Count) : Except Fault Byte :=
  if a.toNat < Config.maxDataLen then .ok (cell s a.toNat) else .error (.frameReadOutside a.toNat)

/-- `MemWrite(a, 1, v)` (20_memory.md R63). An address outside 0..4095 does not exist: a fault (log 5). -/
def memWrite (s : State) (a : Count) (v : Byte) : Except Fault State :=
  if a.toNat < Config.maxDataLen then .ok (s.setFrame (s.frame.write a.toNat v)) else .error (.frameWriteOutside a.toNat)

/-- The Frame of the cycle: `[FRAME[0], ..., FRAME[len-1]]` (10_state.md R28). -/
def frameBytes (s : State) : List Byte := (List.range s.len.toNat).map (cell s)

/-! ### The ports -/

/-- `RxPoll()`: the oldest queued byte, taken from the queue, or `None` and nothing changed (10_state.md R31,
20_memory.md R64). -/
def rxPoll (s : State) : Option Byte × State :=
  match s.env.rxQueue with
  | [] => (none, s)
  | b :: rest => (some b, s.setEnv (s.env.setRxQueue rest))

/-- `Sleep(1)`: one interval passes (10_state.md R32; log 14). -/
def sleepOnce (s : State) : State := s.setEnv (s.env.setTime (s.env.time + Config.sleepMs))

/-- `TxSend(bytes)`: the whole message joins the TX stream, first byte first (10_state.md R33; log 6). -/
def txSend (s : State) (bytes : List Byte) : State := s.setEnv (s.env.setTx (s.env.tx ++ bytes))

/-- `ResEmit(kind, value)`: one record on RES (10_state.md R34). -/
def resEmit (s : State) (kind : Bool) (value : Word) : State :=
  s.setEnv (s.env.setRes (s.env.res ++ [{ isNew := kind, crc := value }]))

/-- An operation that waits for the sink or the timer. Where the environment ends the wait the operation is performed
whole; while it withholds there is no step of the block (60_exceptions.md R233, R235; 92_eei_decisions.md D25). -/
def awaitEnv (s performed : State) : Host.Outcome State Fault Refusal :=
  if s.env.grant then .next (performed.setEnv (performed.env.setPending none)) else .refused .stuck

/-- The block inside an operation, its request to the sink or the timer outstanding, with nothing of the operation done
(60_exceptions.md R233; log 6). -/
def waiting (i : Instr) (s : State) : State := s.setEnv (s.env.setPending (some i))

/-! ### The environment -/

/-- The environment's coming move: the first of the script, or a free value where the script is empty (log 1). -/
def nextMove (s : State) : EnvMove :=
  match s.env.script with
  | m :: _ => m
  | [] => Config.environment s.env.moves

/-- The transport and the waits after a move: bytes lost and bytes arrived in the RX queue, the move counted, the script
shorter by it (70_reset_and_hazards.md R262; log 1, log 12). -/
def Env.moved (e : Env) (m : EnvMove) : Env :=
  ((((e.setRxQueue (e.rxQueue.drop m.lost ++ m.arrive)).setGrant m.grants).setScript e.script.tail).setMoves (e.moves + 1))

/-- The state after the environment's coming move. -/
def envMoved (s : State) : State := s.setEnv (s.env.moved (nextMove s))

/-- The move made `k` steps from now, if none of them writes the script. -/
def moveAt (s : State) (k : Nat) : EnvMove :=
  match s.env.script[k]? with
  | some m => m
  | none => Config.environment (s.env.moves + k)

/-! ### Reset -/

/-- The message an operation sends, if it sends one (30_encoding.md R100 to R103). -/
def messageOf (i : Instr) (s : State) : List Byte :=
  match i with
  | .banner => bannerMsg
  | .cycleStart => readyMsg
  | .reportNodata => nodataMsg s.lastCrc
  | .reportUpdated => updatedMsg s.lastCrc
  | .rxByte | .idleTick | .collectEnd | .crcInit | .crcByte | .crcFinal => []

/-- The environment after the first `p` actions of an operation on the ports, when reset abandons it there
(70_reset_and_hazards.md R250; log 7). A message half sent stays half sent; a byte is taken whole or not at all
(20_memory.md R64); a report publishes its record before it sends its text (42_sequencer_report.md R193, R194). -/
def abandoned (i : Instr) (s : State) (p : Nat) : Env :=
  match i with
  | .banner | .cycleStart => s.env.setTx (s.env.tx ++ (messageOf i s).take p)
  | .reportNodata =>
    if p = 0 then s.env
    else ((resEmit s false s.lastCrc).env).setTx (s.env.tx ++ (messageOf i s).take (p - 1))
  | .reportUpdated =>
    if p = 0 then s.env
    else ((resEmit s true s.lastCrc).env).setTx (s.env.tx ++ (messageOf i s).take (p - 1))
  | .rxByte => if p = 0 then s.env else (rxPoll s).2.env
  | .idleTick => if p = 0 then s.env else (sleepOnce s).env
  | .collectEnd | .crcInit | .crcByte | .crcFinal => s.env

/-- The reset event (70_reset_and_hazards.md R250, 10_state.md R42): every register as after reset, the environment as the
abandoned operation left it (70 R252: it is not reset with the block), no request outstanding. -/
def resetEvent (s : State) (p : Nat) : State :=
  let e := match selected s with
    | .ok i => abandoned i s p
    | .error _ => s.env
  { State.reset with env := (e.setPending none).setResets (e.resets + 1) }

end Sys2Proof.Machine
end

