-- ==== Sys2Proof/Machine/Crc32Engine.lean ====
section
/-! DEFINITION. The CRC32Engine: its pure functions and the operations CRC_INIT, CRC_BYTE, CRC_FINAL
(40_crc32_engine.md). -/

namespace Sys2Proof.Machine

/-- `bitstep(c)`: shift left by one, and XOR with `POLY` where bit 31 of `c` was set (40_crc32_engine.md R132). -/
def bitstep (c : Word) : Word := if c.getLsbD 31 then (c <<< 1) ^^^ Config.poly else c <<< 1

/-- `bytestep(c, b)`: XOR the assembled byte in, then eight bit steps (40_crc32_engine.md R133). -/
def bytestep (c : Word) (b : Byte) : Word :=
  bitstep (bitstep (bitstep (bitstep (bitstep (bitstep (bitstep (bitstep (c ^^^ byteOperand b))))))))

/-- The register after a sequence of bytes, in sequence order (40_crc32_engine.md R134). -/
def crcRegister (c : Word) : List Byte → Word
  | [] => c
  | b :: rest => crcRegister (bytestep c b) rest

/-- `compute(data)`, the engine's contract; total, the empty input not special (40_crc32_engine.md R134, R139). -/
def compute (data : List Byte) : Word := crcResult (crcRegister Config.initCrc data)

/-- `CRC_INIT` (40_crc32_engine.md R135): `crc <- 0xFFFFFFFF; idx <- 0; phase <- CRC`. -/
def execCrcInit (s : State) : Host.Outcome State Fault Refusal :=
  .next (((s.setCrc Config.initCrc).setIdx 0#13).setPhase Phase.crc)

/-- `CRC_BYTE` (40_crc32_engine.md R136): `b = MemRead(idx, 1); crc <- bytestep(crc, b); idx <- idx + 1; phase <- CRC`. -/
def execCrcByte (s : State) : Host.Outcome State Fault Refusal :=
  match memRead s s.idx with
  | .error f => .fault f
  | .ok b => .next (((s.setCrc (bytestep s.crc b)).setIdx (s.idx + 1#13)).setPhase Phase.crc)

/-- `CRC_FINAL` (40_crc32_engine.md R137): `last_crc <- reflect32(crc) ^ 0xFFFFFFFF; phase <- REPORT`. -/
def execCrcFinal (s : State) : Host.Outcome State Fault Refusal :=
  .next ((s.setLastCrc (crcResult s.crc)).setPhase Phase.report)

/-! ### The reflected form (40_crc32_engine.md R145), for a proof of the equivalence -/

/-- One bit step of the right-shifting register, with `P' = reflect32(POLY)` (40_crc32_engine.md R145). -/
def reflectedBitstep (d : Word) : Word := if d.getLsbD 0 then (d >>> 1) ^^^ reflect32 Config.poly else d >>> 1

/-- One byte of the reflected form: the unreflected byte into the bottom, then eight bit steps (40_crc32_engine.md R145). -/
def reflectedBytestep (d : Word) (b : Byte) : Word :=
  reflectedBitstep (reflectedBitstep (reflectedBitstep (reflectedBitstep (reflectedBitstep (reflectedBitstep
    (reflectedBitstep (reflectedBitstep (d ^^^ b.setWidth 32))))))))

/-- The register of the reflected form after a sequence of bytes (40_crc32_engine.md R145). -/
def reflectedRegister (d : Word) : List Byte → Word
  | [] => d
  | b :: rest => reflectedRegister (reflectedBytestep d b) rest

/-- `le4(v)`: the four bytes of a word, low byte first (40_crc32_engine.md R147 f). -/
def le4 (v : Word) : List Byte :=
  [v.extractLsb' 0 8, v.extractLsb' 8 8, v.extractLsb' 16 8, v.extractLsb' 24 8]

end Sys2Proof.Machine
end

