-- ==== Sys2Proof/Machine/FrameCollector.lean ====
section
/-! DEFINITION. The FrameCollector: the operations CYCLE_START, RX_BYTE, IDLE_TICK, COLLECT_END and the big-step form of
a collection (41_frame_collector.md). -/

namespace Sys2Proof.Machine

/-- `CYCLE_START` (41_frame_collector.md R161): `len <- 0; idle <- 0; TxSend(READY_MSG); phase <- COLLECT`. -/
def execCycleStart (s : State) : Host.Outcome State Fault Refusal :=
  awaitEnv s ((txSend ((s.setLen 0#13).setIdle 0#9) readyMsg).setPhase Phase.collect)

/-- `RX_BYTE` (41_frame_collector.md R163): `Some(b) = RxPoll(); MemWrite(len, 1, b); len <- len + 1; idle <- 0;
phase <- COLLECT`. Where the poll answers `None` the table does not select it (log 9). -/
def execRxByte (s : State) : Host.Outcome State Fault Refusal :=
  match rxPoll s with
  | (none, _) => .refused .noByteQueued
  | (some b, s1) =>
    match memWrite s1 s1.len b with
    | .error f => .fault f
    | .ok s2 => .next (((s2.setLen (s2.len + 1#13)).setIdle 0#9).setPhase Phase.collect)

/-- `IDLE_TICK` (41_frame_collector.md R164): `None = RxPoll(); Sleep(1); idle <- idle + 1; phase <- COLLECT`. Inside its
sleep the block has polled already and does not poll again (10_state.md R32). Where the poll answers `Some(b)` the table
does not select it (log 9). -/
def execIdleTick (s : State) : Host.Outcome State Fault Refusal :=
  if s.env.pending = some .idleTick ∨ s.env.rxQueue = [] then
    awaitEnv s (((sleepOnce s).setIdle (s.idle + 1#9)).setPhase Phase.collect)
  else .refused .byteQueued

/-- `COLLECT_END` (41_frame_collector.md R165): `phase <- DONE`. -/
def execCollectEnd (s : State) : Host.Outcome State Fault Refusal :=
  .next (s.setPhase Phase.done)

/-- The loop of a collection in big steps (41_frame_collector.md R169), from a frame and an idle count: the frame yielded
and the number of answers consumed; none where the answers given do not suffice to end it. -/
def collectFrom (frame : List Byte) (idle consumed : Nat) : List (Option Byte) → Option (List Byte × Nat)
  | [] =>
    if idle < Config.idleThreshold ∧ frame.length < Config.maxDataLen then none else some (frame, consumed)
  | a :: rest =>
    if idle < Config.idleThreshold ∧ frame.length < Config.maxDataLen then
      match a with
      | some b => collectFrom (frame ++ [b]) 0 (consumed + 1) rest
      | none => collectFrom frame (idle + 1) (consumed + 1) rest
    else some (frame, consumed)

/-- `collect(a)` (41_frame_collector.md R169): from the cycle start, nothing collected and `idle = 0`. -/
def collect (answers : List (Option Byte)) : Option (List Byte × Nat) := collectFrom [] 0 0 answers

end Sys2Proof.Machine
end

