-- ==== Sys2Proof/Machine/Sequencer.lean ====
section
/-! DEFINITION. The sequencer's reports: the operations BANNER, REPORT_NODATA, REPORT_UPDATED, and the big-step form of a
cycle (42_sequencer_report.md). -/

namespace Sys2Proof.Machine

/-- `BANNER` (42_sequencer_report.md R191): `TxSend(BANNER_MSG); phase <- IDLE`. -/
def execBanner (s : State) : Host.Outcome State Fault Refusal :=
  awaitEnv s ((txSend s bannerMsg).setPhase Phase.idle)

/-- `REPORT_NODATA` (42_sequencer_report.md R193): `ResEmit(0, last_crc); TxSend(NODATA_MSG(last_crc)); phase <- IDLE`. -/
def execReportNodata (s : State) : Host.Outcome State Fault Refusal :=
  awaitEnv s ((txSend (resEmit s false s.lastCrc) (nodataMsg s.lastCrc)).setPhase Phase.idle)

/-- `REPORT_UPDATED` (42_sequencer_report.md R194): `ResEmit(1, last_crc); TxSend(UPDATED_MSG(last_crc)); phase <- IDLE`. -/
def execReportUpdated (s : State) : Host.Outcome State Fault Refusal :=
  awaitEnv s ((txSend (resEmit s true s.lastCrc) (updatedMsg s.lastCrc)).setPhase Phase.idle)

/-- What one cycle leaves (42_sequencer_report.md R199). -/
structure CycleResult where
  /-- `last_crc` after the cycle. -/
  lastCrc : Word
  /-- The bytes the cycle sends. -/
  tx : List Byte
  /-- The one record the cycle publishes. -/
  record : ResRecord
  deriving DecidableEq, Repr

/-- `cycle(last_crc, a)` after the collection has yielded the frame (42_sequencer_report.md R195, R199). -/
def cycleOf (lastCrc : Word) (frame : List Byte) : CycleResult :=
  match frame with
  | [] => { lastCrc := lastCrc, tx := readyMsg ++ nodataMsg lastCrc, record := { isNew := false, crc := lastCrc } }
  | _ :: _ =>
    { lastCrc := compute frame, tx := readyMsg ++ updatedMsg (compute frame),
      record := { isNew := true, crc := compute frame } }

end Sys2Proof.Machine
end

