-- ==== Sys2Proof/Machine/Dispatch.lean ====
section
/-! DEFINITION. One arm per operation, in the table's order (30_encoding.md R92). -/

namespace Sys2Proof.Machine

def exec (i : Instr) (s : State) : Host.Outcome State Fault Refusal :=
  match i with
  | .banner => Sys2Proof.Machine.execBanner s
  | .cycleStart => Sys2Proof.Machine.execCycleStart s
  | .rxByte => Sys2Proof.Machine.execRxByte s
  | .idleTick => Sys2Proof.Machine.execIdleTick s
  | .collectEnd => Sys2Proof.Machine.execCollectEnd s
  | .crcInit => Sys2Proof.Machine.execCrcInit s
  | .reportNodata => Sys2Proof.Machine.execReportNodata s
  | .crcByte => Sys2Proof.Machine.execCrcByte s
  | .crcFinal => Sys2Proof.Machine.execCrcFinal s
  | .reportUpdated => Sys2Proof.Machine.execReportUpdated s

end Sys2Proof.Machine
end

