-- ==== Sys2Proof/Machine/Fetch.lean ====
section
/-! DEFINITION. One step of the block, and the placing of a selection word. The block fetches nothing: the word is formed
from registers and the RX port (30_encoding.md R90; log 13). -/

namespace Sys2Proof.Machine

/-- The block's own step (60_exceptions.md R235): the operation selected (30_encoding.md R92), or one of the two outcomes
that are no step, refused in a reserved phase (R232) and stuck while the environment withholds (R233). -/
def blockStep (s : State) : Host.Outcome State Fault Refusal :=
  match selected s with
  | .ok i => exec i s
  | .error _ => .refused .reservedPhase

/-- The state while the block takes no step, stuck in the operation selected: inside of it (60_exceptions.md R233). -/
def stuckIn (s : State) : State :=
  match selected s with
  | .ok i => waiting i s
  | .error _ => s

/-- What follows the environment's move: the reset event where reset has come (60_exceptions.md R224 e), else the block's
own step. Where the block is stuck it takes none: the environment's move stands alone, so that a later move can end the
wait, bring bytes or bring a reset (R233: not final; 70_reset_and_hazards.md R250, R262; log 6). -/
def stepAfterMove (rst : Option Nat) (s : State) : Host.Outcome State Fault Refusal :=
  match rst with
  | some p => .next (resetEvent s p)
  | none =>
    match blockStep s with
    | .refused .stuck => .next (stuckIn s)
    | o => o

/-- The operation that the block performs after the environment's move, if it performs one: none where reset comes and
none where the block takes no step. -/
def performedAfterMove (rst : Option Nat) (s : State) : Option Instr :=
  match rst, selected s, blockStep s with
  | none, .ok i, .next _ => some i
  | _, _, _ => none

/-- The value of `len` that makes `c_nonempty` and `c_more` those of a word. The one pair no state has (`c_more` without
`c_nonempty`) keeps the bit that the word's phase looks at (log 13). -/
def placedLen (f : Sel) : Count :=
  if f.cNonempty then 1#13 else if f.cMore && f.phase != Phase.done then 1#13 else 0#13

/-- The value of `idx` beside `placedLen` (log 13). -/
def placedIdx (f : Sel) : Count := if f.cMore then 0#13 else placedLen f

/-- The RX queue under which the poll, if one is made, answers as the word says (log 13). -/
def placedQueue (f : Sel) (queue : List Byte) : List Byte :=
  if f.phase == Phase.collect && f.cRun then
    if f.cRx then (if queue.isEmpty then [0x00#8] else queue) else []
  else queue

/-- The frame buffer in which the byte below `len` has a stored value (10_state.md R44 f; log 13). -/
def placedFrame (f : Sel) (m : Memory) : Memory :=
  if placedLen f = 0#13 then m else if (m.read? 0).isSome then m else m.write 0 0x00#8

/-- The state whose very next step forms the given selection word: the registers and the RX queue that the word is made
of, no request outstanding, and a coming move in which nothing else happens (log 13). -/
def placeSel (s : State) (f : Sel) : State :=
  { s with
    phase := f.phase
    idle := if f.cRun then 0#9 else 500#9
    len := placedLen f
    idx := placedIdx f
    frame := placedFrame f s.frame
    env := { s.env with
      rxQueue := placedQueue f s.env.rxQueue
      pending := none
      script := EnvMove.quiet :: s.env.script } }

/-- The state that stands for a byte which is no selection word, its bit 7 set: a reserved phase. -/
def placeNoWord (s : State) : State :=
  { s with phase := 7#3, env := { s.env with pending := none, script := EnvMove.quiet :: s.env.script } }

/-- Place the word of a table row (the host's question), as `decodeTableWord` reads it. -/
def placeTableWord (s : State) (nbits w : Nat) : State :=
  let v := w % 2 ^ nbits
  if v < 128 then placeSel s (Sel.ofWord (BitVec.ofNat 7 v)) else placeNoWord s

end Sys2Proof.Machine
end

