-- ==== Sys2Proof/Machine/Step.lean ====
section
/-! DEFINITION. One step of the machine: the environment's move, then one operation of the block, or none while it
is stuck (log 1, log 6). -/

namespace Sys2Proof.Machine

/-- One step: the environment moves, then the block performs one operation, or is stuck and performs none, or is reset. -/
def step (s : State) : Host.Outcome State Fault Refusal :=
  stepAfterMove (nextMove s).rst (envMoved s)

/-- The operation that the coming step performs, if it performs one (30_encoding.md R107: one trace line each). -/
def performed? (s : State) : Option Instr := performedAfterMove (nextMove s).rst (envMoved s)

/-- `s` with the selection word of a table row placed, so that the very next step runs its operation (log 13). -/
def State.withFetchWord (s : State) (nbits w : Nat) : State := placeTableWord s nbits w

end Sys2Proof.Machine
end

