-- ==== Sys2Proof/Machine/Testenv.lean ====
section
/-! DEFINITION. Traces, stimulus scripts and TESTENV, the deterministic environment of the spec's test programs
(30_encoding.md R107, R108; 92_eei_decisions.md D19, D20; log 21). A test fixture: no claim rests on it. -/

namespace Sys2Proof.Machine

/-- One line of a trace: the operation and the value of every bit of its selection word (30_encoding.md R107). -/
structure TraceLine where
  op : Instr
  sel : SelWord
  deriving DecidableEq, Repr

/-- The text of a trace line: `MNEMONIC sel=0xNN` (30_encoding.md R107). -/
def TraceLine.text (l : TraceLine) : String :=
  l.op.mnemonic ++ " sel=0x" ++
    String.ofList ([hexDigit ((l.sel.setWidth 8).extractLsb' 4 4), hexDigit ((l.sel.setWidth 8).extractLsb' 0 4)].map
      fun d => Char.ofNat d.toNat)

/-- The trace line of the operation that the coming step performs; none where it performs none. Where the block
has waited inside the operation, the word is the one that selected it: its poll is not made again (log 22). -/
def traceLine? (s : State) : Option TraceLine :=
  (performed? s).map fun i => { op := i, sel := selWord (envMoved s) }

/-- The `at T: b` lines of a stimulus script, one byte each, in the order written; `T` in whole milliseconds (log 21). -/
abbrev Stimulus := List (Nat × Byte)

/-- The move of TESTENV: every byte whose time has come joins the queue; nothing is lost, every wait ends, no reset. -/
def testMove (stim : Stimulus) (now : Nat) : EnvMove :=
  { lost := 0, arrive := (stim.filter (fun a => decide (a.1 ≤ now))).map Prod.snd, grants := true, rst := none }

/-- The bytes of a stimulus script whose time has not come. -/
def stillToCome (stim : Stimulus) (now : Nat) : Stimulus := stim.filter (fun a => !decide (a.1 ≤ now))

/-- A run under TESTENV until `reports` records stand on RES or the fuel is out (30_encoding.md R108,
`run until reports = N`): the trace and the outcome. -/
def testRun : Nat → Nat → Stimulus → State → List TraceLine × Host.Outcome State Fault Refusal
  | 0, _, _, s => ([], .next s)
  | fuel + 1, reports, stim, s =>
    if reports ≤ s.env.res.length then ([], .next s)
    else
      let s1 := s.setEnv (s.env.setScript [testMove stim s.env.time])
      match step s1 with
      | .next t =>
        let r := testRun fuel reports (stillToCome stim s.env.time) t
        ((traceLine? s1).toList ++ r.1, r.2)
      | o => ((traceLine? s1).toList, o)

/-- The pseudo-operation `COMPUTE`, for a frame of `n` bytes (30_encoding.md R108). -/
def computeOps (n : Nat) : List Instr := .crcInit :: (List.replicate n .crcByte ++ [.crcFinal])

/-- The pseudo-operation `COLLECT`, for the answers the polls got (30_encoding.md R108). -/
def collectOps (answers : List (Option Byte)) : List Instr :=
  .cycleStart :: (answers.map (fun a => if a.isSome then .rxByte else .idleTick) ++ [.collectEnd])

/-- The pseudo-operation `CYCLE`, for the answers the polls got and the length of the frame (30_encoding.md R108). -/
def cycleOps (answers : List (Option Byte)) (len : Nat) : List Instr :=
  collectOps answers ++ (if len = 0 then [.reportNodata] else computeOps len ++ [.reportUpdated])

end Sys2Proof.Machine
end

