-- ==== Sys2Proof/Machine/Ports.lean ====
section
/-! DEFINITION. The port signals as views of the state (10_state.md R31 to R34; log 16). A pulse inside an atomic
operation (`rx_pop`, `res_valid`) is that operation's effect on the RX queue and on the RES stream. -/

namespace Sys2Proof.Machine

/-- `rx_valid` (10_state.md R31): a byte is queued. -/
def rxValid (s : State) : Bool := !s.env.rxQueue.isEmpty

/-- `rx_data[7:0]` (10_state.md R31): the oldest queued byte, meaningful while `rx_valid` is 1. -/
def rxData (s : State) : Option Byte := s.env.rxQueue.head?

/-- `slp_req` (10_state.md R32): a sleep is requested and has not ended. -/
def slpReq (s : State) : Bool := s.env.pending == some .idleTick

/-- The operations that send a message (20_memory.md R60 c). -/
def sends : Instr → Bool
  | .banner | .cycleStart | .reportNodata | .reportUpdated => true
  | .rxByte | .idleTick | .collectEnd | .crcInit | .crcByte | .crcFinal => false

/-- `tx_valid` (10_state.md R33): a message is presented and the sink has not taken all of it. -/
def txValid (s : State) : Bool :=
  match s.env.pending with
  | some i => sends i
  | none => false

end Sys2Proof.Machine
end

