-- ==== Sys2Proof/Safety.lean ====
section
/-! DEFINITION. What counts as a safe run, in the terms that claims use: runs, the invariant of the reachable states
(10_state.md R44), and the shape of the outputs (42_sequencer_report.md R195 to R197). -/

namespace Sys2Proof.Machine

/-! ### Runs -/

/-- `k` steps, stopping at the first fault or refusal. -/
def run : Nat → State → Host.Outcome State Fault Refusal
  | 0, s => .next s
  | k + 1, s =>
    match step s with
    | .next t => run k t
    | .fault f => .fault f
    | .refused r => .refused r

/-- The operations that `k` steps perform, in order, each once: the mnemonics of the trace (30_encoding.md R107). A move
of the environment while the block is stuck, and a reset event, perform none. -/
def opsOfRun : Nat → State → List Instr
  | 0, _ => []
  | k + 1, s =>
    match step s with
    | .next t => (performed? s).toList ++ opsOfRun k t
    | _ => []

/-- A move that ends every wait and carries no reset: the environment's duties (70_reset_and_hazards.md R262). -/
def EnvMove.fair (m : EnvMove) : Bool := m.grants && m.rst.isNone

/-- The environment's next `n` moves are fair. -/
def FairFor (n : Nat) (s : State) : Prop := ∀ k, k < n → EnvMove.fair (moveAt s k) = true

/-- No reset comes in the environment's next `n` moves. -/
def NoResetFor (n : Nat) (s : State) : Prop := ∀ k, k < n → (moveAt s k).rst = none

/-- The answers that the byte source gives in `k` steps, one poll a step (41_frame_collector.md R169). -/
def answersOf : Nat → State → List (Option Byte)
  | 0, _ => []
  | k + 1, s =>
    (envMoved s).env.rxQueue.head? ::
      match step s with
      | .next t => answersOf k t
      | _ => []

/-- The state after reset with a stimulus placed: the moves of the environment known in advance (log 13). -/
def resetWithScript (script : List EnvMove) : State := State.reset.setEnv (State.reset.env.setScript script)

/-! ### The invariant of the reachable states -/

/-- Where an operation can wait for the environment (60_exceptions.md R233): it is one that sends or sleeps, and it is
the one selected in the state. -/
def waitsIn (i : Instr) (s : State) : Bool :=
  match i with
  | .banner => s.phase == Phase.boot
  | .cycleStart => s.phase == Phase.idle
  | .idleTick => s.phase == Phase.collect && cRun s
  | .reportNodata => s.phase == Phase.done && !cNonempty s
  | .reportUpdated => s.phase == Phase.report
  | .rxByte | .collectEnd | .crcInit | .crcByte | .crcFinal => false

/-- A cycle's frame is being collected or is complete. -/
def frameLive (p : PhaseBits) : Bool := p == Phase.collect || p == Phase.done || p == Phase.crc || p == Phase.report

/-- A collection has ended and its frame is not yet reported. -/
def frameYielded (p : PhaseBits) : Bool := p == Phase.done || p == Phase.crc || p == Phase.report

/-- The invariant (10_state.md R44), with what else every reachable state has and the proofs need. -/
structure Inv (s : State) : Prop where
  /-- R44 a. -/
  phaseLegal : s.phase.toNat ≤ 5
  /-- R44 b. -/
  lenRange : s.len.toNat ≤ Config.maxDataLen
  /-- R44 c. -/
  idleRange : s.idle.toNat ≤ Config.idleThreshold
  /-- R44 d. -/
  idxRange : s.idx.toNat ≤ Config.maxDataLen
  /-- R44 d. -/
  idxBelowLen : s.phase = Phase.crc ∨ s.phase = Phase.report → s.idx.toNat ≤ s.len.toNat
  /-- R44 e: the stored cells are in canonical form and inside `FRAME`. -/
  frameWf : s.frame.wf = true
  /-- R44 f. -/
  frameWritten : frameLive s.phase = true → ∀ a, a < s.len.toNat → (s.frame.read? a).isSome = true
  /-- R44 g: a full buffer was filled by an `RX_BYTE`, which cleared `idle`. -/
  fullThenFresh : s.len.toNat = Config.maxDataLen → s.idle.toNat = 0
  /-- 41_frame_collector.md R165, R166: a collection has ended by idle timeout or by a full buffer. -/
  endedHow : frameYielded s.phase = true → s.idle.toNat = Config.idleThreshold ∨ s.len.toNat = Config.maxDataLen
  /-- 40_crc32_engine.md R142: the pass runs on a non-empty frame only. -/
  passNonempty : s.phase = Phase.crc ∨ s.phase = Phase.report → 0 < s.len.toNat
  /-- 60_exceptions.md R233: the block waits only inside an operation that is the one selected. -/
  pendingSelected : ∀ i, s.env.pending = some i → waitsIn i s = true

/-- The CRC pass: in phase `CRC` the register has consumed the bytes below `idx`; in phase `REPORT` `last_crc` is the
checksum of the whole frame (40_crc32_engine.md R141). -/
structure PassInv (s : State) : Prop where
  register : s.phase = Phase.crc → s.crc = crcRegister Config.initCrc ((frameBytes s).take s.idx.toNat)
  result : s.phase = Phase.report → s.idx = s.len ∧ s.lastCrc = compute (frameBytes s)

/-- The TX stream that goes with the reports published, in a phase (42_sequencer_report.md R197): the banner, a prompt and
a report message for each record, and the prompt of the cycle in progress. -/
def expectedTx (p : PhaseBits) (res : List ResRecord) : List Byte :=
  bannerMsg ++ res.flatMap (fun r => readyMsg ++ reportMsg r) ++ (if p = Phase.idle then [] else readyMsg)

/-- The outputs of a run without a reset in it (42_sequencer_report.md R197). -/
structure OutputInv (s : State) : Prop where
  atBoot : s.phase = Phase.boot → s.env.tx = [] ∧ s.env.res = []
  afterBoot : s.phase ≠ Phase.boot → s.env.tx = expectedTx s.phase s.env.res

/-- The value `last_crc` holds outside phase `REPORT`, where the last reset left `before` records on RES: that of the last
`REPORT_UPDATED` record since, and before any of them the reset value (42_sequencer_report.md R195, R196). -/
structure HeldSince (before : Nat) (s : State) : Prop where
  kept : before ≤ s.env.res.length
  held : s.phase ≠ Phase.report →
    s.lastCrc =
      ((((s.env.res.drop before).filter ResRecord.isNew).getLast?).map ResRecord.crc).getD Config.lastCrcReset

/-! ### What the ports can show -/

/-- Two states that nothing to come can tell apart: all equal but the dead cells of `FRAME` (70_reset_and_hazards.md R260)
and, outside phase `CRC`, the dead values of `crc` and `idx` (10_state.md R21). -/
structure SameVisible (s t : State) : Prop where
  env : s.env = t.env
  phase : s.phase = t.phase
  len : s.len = t.len
  idle : s.idle = t.idle
  lastCrc : s.lastCrc = t.lastCrc
  frame : ∀ a, a < s.len.toNat → cell s a = cell t a
  pass : s.phase = Phase.crc → s.crc = t.crc ∧ s.idx = t.idx

/-- Two outcomes that are alike: next states related, or the same fault, or the same refusal. -/
def SameOutcome (rel : State → State → Prop) : Host.Outcome State Fault Refusal → Host.Outcome State Fault Refusal → Prop
  | .next s, .next t => rel s t
  | .fault f, .fault g => f = g
  | .refused r, .refused q => r = q
  | _, _ => False

end Sys2Proof.Machine
end

