-- ==== Sys2Proof/Certificates/Slice0/Obligations.lean ====
section
/-! DEFINITION. The statements for the provers. Hypotheses on the environment (`grant`, `FairFor`, `NoResetFor`) are its
duties and liberties as 70_reset_and_hazards.md R262 lists them. -/

open Sys2Proof Sys2Proof.Machine

/-! ### Selection and encoding -/

/-- 30_encoding.md R90: where each field stands in the selection word that a state forms, and that the operation selected
is the one whose row matches it. -/
def Obligations.SelectionWordLayout : Prop :=
  (∀ s : State,
    (selWord s).extractLsb' 4 3 = s.phase ∧ (selWord s).getLsbD 3 = cRun s ∧ (selWord s).getLsbD 2 = cRx s ∧
    (selWord s).getLsbD 1 = cNonempty s ∧ (selWord s).getLsbD 0 = cMore s) ∧
  (∀ (s : State) (i : Instr), s.env.pending = none →
    (selected s = .ok i ↔ ∃ r ∈ opTable, r.op = i ∧ selWord s &&& r.mask = r.pattern))

/-- 10_state.md R29: the four condition signals; `c_rx` where the block is between operations, when the word is formed
(30_encoding.md R90). Inside a wait it is 0: PerformedWordIsOfItsRow. -/
def Obligations.ConditionSignals : Prop :=
  ∀ s : State,
    (cRun s = true ↔ s.idle.toNat < 500 ∧ s.len.toNat < 4096) ∧
    (s.env.pending = none →
      (cRx s = true ↔ s.phase = Phase.collect ∧ cRun s = true ∧ ∃ b s', rxPoll s = (some b, s'))) ∧
    (cNonempty s = true ↔ 0 < s.len.toNat) ∧
    (cMore s = true ↔ s.idx.toNat < s.len.toNat)

/-- Words written out from 30_encoding.md R92, and from the decode table of 95_test_vectors.md, read as they say. -/
def Obligations.TableWordsDecode : Prop :=
  decodeTableWord 8 0b0001000 = some .banner ∧ decodeTableWord 8 0b0010010 = some .cycleStart ∧
  decodeTableWord 8 0b0101111 = some .rxByte ∧ decodeTableWord 8 0b0101011 = some .idleTick ∧
  decodeTableWord 8 0b0100011 = some .collectEnd ∧ decodeTableWord 8 0b0110011 = some .crcInit ∧
  decodeTableWord 8 0b0111000 = some .reportNodata ∧ decodeTableWord 8 0b1001011 = some .crcByte ∧
  decodeTableWord 8 0b1000010 = some .crcFinal ∧ decodeTableWord 8 0b1011111 = some .reportUpdated ∧
  decodeTableWord 8 0b1100000 = none ∧ decodeTableWord 8 0b1111111 = none

/-- 30_encoding.md R94 and R93: on phases 0 to 5 exactly one row of the table matches, on phases 6 and 7 none. -/
def Obligations.TableTotalAndUnambiguous : Prop :=
  ∀ w : SelWord,
    ((w.extractLsb' 4 3).toNat ≤ 5 → ∃ r, opTable.filter (fun r => r.matches w) = [r] ∧ decodeSel w = .ok r.op) ∧
    (6 ≤ (w.extractLsb' 4 3).toNat → opTable.filter (fun r => r.matches w) = [] ∧ decodeSel w = .error .reservedPhase)

/-- The `sel` column of any trace, each word with any value in the bits its row does not look at, decodes to the
operations of the trace. -/
def Obligations.DecodeOfEncodedTrace : Prop :=
  ∀ trace : List (Instr × SelWord),
    decodeTrace (trace.map fun l => encodeByte l.1 l.2) = .ok (trace.map Prod.fst)

/-- The MODEL's own placing (log 13): a placed word that a state can form is the word which the next step forms. -/
def Obligations.PlacedWordIsFormed : Prop :=
  ∀ (s : State) (f : Sel), f.wellFormed = true →
    selFields (envMoved (placeSel s f)) = f ∧ selWord (envMoved (placeSel s f)) = f.word

/-- The MODEL's own placing (log 13): a placed word of the table is what the very next step runs. -/
def Obligations.PlacedWordRuns : Prop :=
  ∀ (s : State) (w : Nat) (i : Instr), w < 128 → decodeTableWord 8 w = some i →
    selected (envMoved (s.withFetchWord 8 w)) = .ok i ∧
    step (s.withFetchWord 8 w) = exec i (envMoved (s.withFetchWord 8 w))

/-- A step runs the decoded operation: after the environment's move, which changes the RX queue, the grant and the
model's script and count only, the operation of the selection word is performed; inside a wait, the one waited in. Where
that operation is stuck the block takes no step, and the environment's move stands alone (60_exceptions.md R233, R235;
log 6). -/
def Obligations.StepRunsSelectedOperation : Prop :=
  ∀ s : State,
    envMoved s = { s with env := { s.env with
      rxQueue := s.env.rxQueue.drop (nextMove s).lost ++ (nextMove s).arrive, grant := (nextMove s).grants,
      script := s.env.script.tail, moves := s.env.moves + 1 } } ∧
    ((nextMove s).rst = none → ∀ i,
      (s.env.pending = none ∧ decodeSel (selWord (envMoved s)) = .ok i) ∨
        (s.env.pending = some i ∧ s.phase.toNat ≤ 5) →
      blockStep (envMoved s) = exec i (envMoved s) ∧
      (exec i (envMoved s) ≠ .refused .stuck → step s = exec i (envMoved s)) ∧
      (exec i (envMoved s) = .refused .stuck →
        step s = .next ((envMoved s).setEnv ((envMoved s).env.setPending (some i)))) ∧
      (performed? s = some i ↔ ∃ t, exec i (envMoved s) = .next t))

/-- 60_exceptions.md R232: a reserved phase is refused, whatever is outstanding, and no run from reset reaches one. -/
def Obligations.ReservedPhaseRefused : Prop :=
  (∀ s : State, 6 ≤ s.phase.toNat → (nextMove s).rst = none → step s = .refused .reservedPhase) ∧
  (∀ (n : Nat) (script : List EnvMove) (s : State), run n (resetWithScript script) = .next s → s.phase.toNat ≤ 5)

/-! ### The CRC32Engine -/

/-- 40_crc32_engine.md R130, R131: the reflections reverse the bits of a byte and of a word. -/
def Obligations.ReflectionsReverseBits : Prop :=
  (∀ (b : Byte) (i : Nat), i < 8 → (reflect8 b).getLsbD i = b.getLsbD (7 - i)) ∧
  (∀ (v : Word) (i : Nat), i < 32 → (reflect32 v).getLsbD i = v.getLsbD (31 - i))

/-- 30_encoding.md R96: a frame byte enters the register's top byte, its bit 0 at bit 31; 40_crc32_engine.md R133: then
eight bit steps. -/
def Obligations.ByteEntersRegister : Prop :=
  (∀ (c : Word) (b : Byte) (i : Nat),
    (i < 8 → (c ^^^ byteOperand b).getLsbD (31 - i) = (c.getLsbD (31 - i) ^^ b.getLsbD i)) ∧
    (i < 24 → (c ^^^ byteOperand b).getLsbD i = c.getLsbD i)) ∧
  (∀ b : Byte, byteOperand b = (reflect8 b).setWidth 32 <<< 24) ∧
  (∀ (c : Word) (b : Byte), bytestep c b = Nat.iterate bitstep 8 (c ^^^ byteOperand b))

/-- 40_crc32_engine.md R132: one bit step, bit by bit. -/
def Obligations.BitstepBits : Prop :=
  ∀ (c : Word) (i : Nat), i < 32 →
    (bitstep c).getLsbD i =
      ((decide (0 < i) && c.getLsbD (i - 1)) ^^ (c.getLsbD 31 && (0x04C11DB7#32).getLsbD i))

/-- 30_encoding.md R97: how the result leaves the register. -/
def Obligations.ResultLeavesRegister : Prop :=
  ∀ c : Word, crcResult c = reflect32 c ^^^ 0xFFFFFFFF#32 ∧
    ∀ i, i < 32 → (crcResult c).getLsbD i = !(c.getLsbD (31 - i))

/-- 40_crc32_engine.md R134: `compute` steps through the bytes in order from `0xFFFFFFFF` and ends with the result. -/
def Obligations.ComputeIsAFold : Prop :=
  ∀ data : List Byte, compute data = reflect32 (data.foldl bytestep 0xFFFFFFFF#32) ^^^ 0xFFFFFFFF#32

/-- 40_crc32_engine.md R139, R144, 70_reset_and_hazards.md R258: check values of `compute`. -/
def Obligations.ComputeCheckValues : Prop :=
  compute [] = 0x00000000#32 ∧
  compute [0x31, 0x32, 0x33, 0x34, 0x35, 0x36, 0x37, 0x38, 0x39] = 0xCBF43926#32 ∧
  compute [0x41] = 0xD3D99E8B#32 ∧ compute [0x41, 0x42] = 0x30694C07#32 ∧ compute [0x42, 0x41] = 0x824D4E7E#32 ∧
  compute [0x9D, 0x0A, 0xD9, 0x6D] = 0x00000000#32

/-- 40_crc32_engine.md R145: the right-shifting, unreflected-input form computes the same function; the registers of the
two forms are reflections of each other at every byte boundary. -/
def Obligations.ReflectedFormComputesTheSame : Prop :=
  reflect32 0x04C11DB7#32 = 0xEDB88320#32 ∧
  ∀ data : List Byte,
    reflectedRegister 0xFFFFFFFF#32 data = reflect32 (crcRegister 0xFFFFFFFF#32 data) ∧
    compute data = reflectedRegister 0xFFFFFFFF#32 data ^^^ 0xFFFFFFFF#32

/-- 40_crc32_engine.md R147 a to c: the reflections are involutions and distribute over XOR, and the bit step and the
byte step are linear over GF(2). -/
def Obligations.EngineIsLinear : Prop :=
  (∀ b : Byte, reflect8 (reflect8 b) = b) ∧ (∀ v : Word, reflect32 (reflect32 v) = v) ∧
  (∀ a b : Word, reflect32 (a ^^^ b) = reflect32 a ^^^ reflect32 b) ∧
  (∀ a b : Word, bitstep (a ^^^ b) = bitstep a ^^^ bitstep b) ∧
  (∀ (c e : Word) (b : Byte), bytestep (c ^^^ e) b = bytestep c b ^^^ bytestep e 0x00#8)

/-- 40_crc32_engine.md R147 f: data followed by its own checksum, low byte first, has one constant checksum. The spec
marks its universality as general knowledge. -/
def Obligations.ResidueIsConstant : Prop :=
  ∀ data : List Byte, compute (data ++ le4 (compute data)) = 0x2144DF1C#32

/-- 40_crc32_engine.md R135: CRC_INIT. -/
def Obligations.CrcInitEffect : Prop :=
  (∀ w : SelWord, decodeSel w = .ok .crcInit ↔ w &&& 0x72#7 = 0x32#7) ∧
  (∀ s : State, s.env.pending = none → (selected s = .ok .crcInit ↔ s.phase = Phase.done ∧ 1 ≤ s.len.toNat)) ∧
  (∀ s : State, exec .crcInit s = .next { s with crc := 0xFFFFFFFF#32, idx := 0#13, phase := Phase.crc })

/-- 40_crc32_engine.md R136: CRC_BYTE. -/
def Obligations.CrcByteEffect : Prop :=
  (∀ w : SelWord, decodeSel w = .ok .crcByte ↔ w &&& 0x71#7 = 0x41#7) ∧
  (∀ s : State, s.env.pending = none →
    (selected s = .ok .crcByte ↔ s.phase = Phase.crc ∧ s.idx.toNat < s.len.toNat)) ∧
  (∀ s : State, s.idx.toNat ≤ 4095 →
    memRead s s.idx = .ok (cell s s.idx.toNat) ∧
    exec .crcByte s =
      .next { s with crc := bytestep s.crc (cell s s.idx.toNat), idx := s.idx + 1#13, phase := Phase.crc }) ∧
  (∀ s : State, Inv s → s.env.pending = none → selected s = .ok .crcByte →
    s.idx.toNat ≤ 4095 ∧ (s.frame.read? s.idx.toNat).isSome = true ∧ (s.idx + 1#13).toNat = s.idx.toNat + 1)

/-- 40_crc32_engine.md R137: CRC_FINAL. -/
def Obligations.CrcFinalEffect : Prop :=
  (∀ w : SelWord, decodeSel w = .ok .crcFinal ↔ w &&& 0x71#7 = 0x40#7) ∧
  (∀ s : State, s.env.pending = none →
    (selected s = .ok .crcFinal ↔ s.phase = Phase.crc ∧ ¬ s.idx.toNat < s.len.toNat)) ∧
  (∀ s : State, exec .crcFinal s =
    .next { s with lastCrc := reflect32 s.crc ^^^ 0xFFFFFFFF#32, phase := Phase.report }) ∧
  (∀ (i : Instr) (s t : State), i ≠ .crcFinal → exec i s = .next t → t.lastCrc = s.lastCrc) ∧
  (∀ s : State, Inv s → s.env.pending = none → selected s = .ok .crcFinal → s.idx = s.len ∧ 1 ≤ s.idx.toNat)

/-- 40_crc32_engine.md R141: the pass over a frame of `n` bytes is CRC_INIT, `n` times CRC_BYTE, CRC_FINAL, and leaves
`compute` of the frame. -/
def Obligations.CrcPassComputesFrame : Prop :=
  ∀ s : State, s.phase = Phase.done → s.env.pending = none → 1 ≤ s.len.toNat → s.len.toNat ≤ 4096 →
    NoResetFor (s.len.toNat + 2) s →
    opsOfRun (s.len.toNat + 2) s = computeOps s.len.toNat ∧
    ∃ t, run (s.len.toNat + 2) s = .next t ∧ t.lastCrc = compute (frameBytes s) ∧ t.idx = s.len ∧
      t.phase = Phase.report ∧ t.len = s.len ∧ t.idle = s.idle ∧ t.frame = s.frame ∧
      t.env.tx = s.env.tx ∧ t.env.res = s.env.res ∧ t.env.time = s.env.time

/-! ### The FrameCollector -/

/-- 20_memory.md R63: a write sets one cell and no other, a read returns the cell and changes nothing. -/
def Obligations.FrameReadAndWrite : Prop :=
  ∀ (s : State) (a : Count) (v : Byte), a.toNat ≤ 4095 →
    memRead s a = .ok (cell s a.toNat) ∧
    ∃ t, memWrite s a v = .ok t ∧ memRead t a = .ok v ∧ (∀ b, b ≠ a.toNat → cell t b = cell s b) ∧
      t = { s with frame := t.frame } ∧ (s.frame.wf = true → t.frame.wf = true)

/-- 41_frame_collector.md R161: CYCLE_START; while the sink withholds there is no step of it (60_exceptions.md R233, R235),
in the model the outcome `stuck` (log 6). -/
def Obligations.CycleStartEffect : Prop :=
  (∀ w : SelWord, decodeSel w = .ok .cycleStart ↔ w &&& 0x70#7 = 0x10#7) ∧
  (∀ s : State, s.env.pending = none → (selected s = .ok .cycleStart ↔ s.phase = Phase.idle)) ∧
  (∀ s : State, s.env.grant = true →
    exec .cycleStart s =
      .next { s with len := 0#13, idle := 0#9, phase := Phase.collect,
                     env := { s.env with tx := s.env.tx ++ readyMsg, pending := none } }) ∧
  (∀ s : State, s.env.grant = false →
    exec .cycleStart s = .refused .stuck)

/-- 41_frame_collector.md R163: RX_BYTE. The 4096th byte ends the collection without another poll. -/
def Obligations.RxByteEffect : Prop :=
  (∀ w : SelWord, decodeSel w = .ok .rxByte ↔ w &&& 0x7C#7 = 0x2C#7) ∧
  (∀ s : State, s.env.pending = none →
    (selected s = .ok .rxByte ↔
      s.phase = Phase.collect ∧ s.idle.toNat < 500 ∧ s.len.toNat < 4096 ∧ s.env.rxQueue ≠ [])) ∧
  (∀ (s : State) (b : Byte) (rest : List Byte), s.env.rxQueue = b :: rest → s.len.toNat ≤ 4095 →
    ∃ t, exec .rxByte s = .next t ∧
      t = { s with frame := t.frame, len := s.len + 1#13, idle := 0#9, phase := Phase.collect,
                   env := { s.env with rxQueue := rest } } ∧
      t.len.toNat = s.len.toNat + 1 ∧
      cell t s.len.toNat = b ∧ (∀ a, a ≠ s.len.toNat → cell t a = cell s a) ∧
      (s.len.toNat = 4095 → s.env.pending = none →
        cRun t = false ∧ selected (envMoved t) = .ok .collectEnd))

/-- 41_frame_collector.md R164: IDLE_TICK; the 500th ends the collection without another poll; while the timer withholds
there is no step of it (60_exceptions.md R233, R235), in the model the outcome `stuck` (log 6). -/
def Obligations.IdleTickEffect : Prop :=
  (∀ w : SelWord, decodeSel w = .ok .idleTick ↔ w &&& 0x7C#7 = 0x28#7) ∧
  (∀ s : State, s.env.pending = none →
    (selected s = .ok .idleTick ↔
      s.phase = Phase.collect ∧ s.idle.toNat < 500 ∧ s.len.toNat < 4096 ∧ s.env.rxQueue = [])) ∧
  (∀ s : State, (s.env.rxQueue = [] ∨ s.env.pending = some .idleTick) → s.env.grant = true →
    ∃ t, exec .idleTick s = .next t ∧
      t = { s with idle := s.idle + 1#9, phase := Phase.collect,
                   env := { s.env with time := s.env.time + 1, pending := none } } ∧
      (s.idle.toNat ≤ 499 → t.idle.toNat = s.idle.toNat + 1) ∧
      (s.idle.toNat = 499 → cRun t = false ∧ selected (envMoved t) = .ok .collectEnd)) ∧
  (∀ s : State, (s.env.rxQueue = [] ∨ s.env.pending = some .idleTick) → s.env.grant = false →
    exec .idleTick s = .refused .stuck)

/-- 41_frame_collector.md R165: COLLECT_END; it is selected for exactly one of the two reasons. -/
def Obligations.CollectEndEffect : Prop :=
  (∀ w : SelWord, decodeSel w = .ok .collectEnd ↔ w &&& 0x78#7 = 0x20#7) ∧
  (∀ s : State, s.env.pending = none →
    (selected s = .ok .collectEnd ↔ s.phase = Phase.collect ∧ ¬ (s.idle.toNat < 500 ∧ s.len.toNat < 4096))) ∧
  (∀ s : State, exec .collectEnd s = .next { s with phase := Phase.done }) ∧
  (∀ s : State, Inv s → s.env.pending = none → selected s = .ok .collectEnd →
    (s.idle.toNat = 500 ∧ s.len.toNat ≤ 4095) ∨ (s.len.toNat = 4096 ∧ s.idle.toNat = 0))

/-- 41_frame_collector.md R162, 60_exceptions.md R224 a and c: the guard comes before the poll, and a queued byte before
the sleep. -/
def Obligations.CollectionGuard : Prop :=
  ∀ s : State, s.phase = Phase.collect → s.env.pending = none →
    (¬ (s.idle.toNat < 500 ∧ s.len.toNat < 4096) → selected s = .ok .collectEnd) ∧
    (s.idle.toNat < 500 → s.len.toNat < 4096 → s.env.rxQueue ≠ [] → selected s = .ok .rxByte) ∧
    (s.idle.toNat < 500 → s.len.toNat < 4096 → s.env.rxQueue = [] → selected s = .ok .idleTick)

/-- The MODEL's own stops (log 5, log 9): asked for where the table does not select them, RX_BYTE and IDLE_TICK are
refused; an access outside `FRAME` faults. -/
def Obligations.OperationsStopOffTheTable : Prop :=
  (∀ s : State, s.env.rxQueue = [] → exec .rxByte s = .refused .noByteQueued) ∧
  (∀ s : State, s.env.rxQueue ≠ [] → s.env.pending ≠ some .idleTick → exec .idleTick s = .refused .byteQueued) ∧
  (∀ s : State, s.env.rxQueue ≠ [] → 4096 ≤ s.len.toNat → exec .rxByte s = .fault (.frameWriteOutside s.len.toNat)) ∧
  (∀ s : State, 4096 ≤ s.idx.toNat → exec .crcByte s = .fault (.frameReadOutside s.idx.toNat)) ∧
  (∀ (s : State) (a : Count) (v : Byte), 4096 ≤ a.toNat →
    memRead s a = .error (.frameReadOutside a.toNat) ∧ memWrite s a v = .error (.frameWriteOutside a.toNat))

/-- 41_frame_collector.md R170: every collection ends. From any point of it, with every wait ended and no reset, the block
reaches phase `DONE` after at most `(4096 - len) * 500 - idle` polls and the COLLECT_END. -/
def Obligations.EveryCollectionEnds : Prop :=
  ∀ s : State, s.phase = Phase.collect → s.env.pending = none → s.len.toNat ≤ 4096 → s.idle.toNat ≤ 500 →
    FairFor ((4096 - s.len.toNat) * 500 + 1) s →
    ∃ n t, n ≤ (4096 - s.len.toNat) * 500 - s.idle.toNat + 1 ∧ n ≤ 2048001 ∧ run n s = .next t ∧ t.phase = Phase.done

/-- 41_frame_collector.md R169, R170: whatever the byte source answers, a collection that begins with nothing collected
ends after at most 2,048,000 polls and yields what the big-step `collect` yields for the answers given. -/
def Obligations.CollectionRefinesCollect : Prop :=
  ∀ s : State, s.phase = Phase.collect → s.env.pending = none → s.len = 0#13 → s.idle = 0#9 →
    FairFor 2048001 s →
    ∃ k t, k ≤ 2048000 ∧ run (k + 1) s = .next t ∧ t.phase = Phase.done ∧
      collect (answersOf k s) = some (frameBytes t, k) ∧
      .cycleStart :: opsOfRun (k + 1) s = collectOps (answersOf k s) ∧
      t.env.time = s.env.time + (answersOf k s).count none ∧
      t.crc = s.crc ∧ t.idx = s.idx ∧ t.lastCrc = s.lastCrc ∧ t.env.tx = s.env.tx ∧ t.env.res = s.env.res

/-- 70_reset_and_hazards.md R266, 95_test_vectors.md W1: with nothing to receive, a collection is exactly 500 polls and
500 sleeps and yields the empty frame. -/
def Obligations.SilentCollectionIs500Sleeps : Prop :=
  ∀ s : State, s.phase = Phase.collect → s.env.pending = none → s.len = 0#13 → s.idle = 0#9 → s.env.rxQueue = [] →
    (∀ k, k < 500 → EnvMove.fair (moveAt s k) = true ∧ (moveAt s k).arrive = []) → (moveAt s 500).rst = none →
    opsOfRun 501 s = List.replicate 500 .idleTick ++ [.collectEnd] ∧
    ∃ t, run 501 s = .next t ∧ t.phase = Phase.done ∧ t.len = 0#13 ∧ t.idle = 500#9 ∧ t.env.time = s.env.time + 500

/-- 41_frame_collector.md R160: the transitions of the collector's three states, and no other. -/
def Obligations.CollectorTransitions : Prop :=
  ∀ (s t : State) (i : Instr), Inv s → (nextMove s).rst = none → selected (envMoved s) = .ok i → step s = .next t →
    t.env.pending = none →
    match i with
    | .banner => collectorState s.phase = some .idle ∧ collectorState t.phase = some .idle
    | .cycleStart => collectorState s.phase = some .idle ∧ collectorState t.phase = some .collecting
    | .rxByte => collectorState s.phase = some .collecting ∧ collectorState t.phase = some .collecting
    | .idleTick => collectorState s.phase = some .collecting ∧ collectorState t.phase = some .collecting
    | .collectEnd => collectorState s.phase = some .collecting ∧ collectorState t.phase = some .done
    | .crcInit => collectorState s.phase = some .done ∧ collectorState t.phase = some .done
    | .crcByte => collectorState s.phase = some .done ∧ collectorState t.phase = some .done
    | .crcFinal => collectorState s.phase = some .done ∧ collectorState t.phase = some .done
    | .reportNodata => collectorState s.phase = some .done ∧ collectorState t.phase = some .idle
    | .reportUpdated => collectorState s.phase = some .done ∧ collectorState t.phase = some .idle

/-! ### The sequencer and its reports -/

/-- 42_sequencer_report.md R191: BANNER; no operation returns to `BOOT`. While the sink withholds there
is no step of it (60_exceptions.md R233, R235), in the model the outcome `stuck` (log 6). -/
def Obligations.BannerEffect : Prop :=
  (∀ w : SelWord, decodeSel w = .ok .banner ↔ w &&& 0x70#7 = 0x00#7) ∧
  (∀ s : State, s.env.pending = none → (selected s = .ok .banner ↔ s.phase = Phase.boot)) ∧
  (∀ s : State, s.env.grant = true →
    exec .banner s =
      .next { s with phase := Phase.idle, env := { s.env with tx := s.env.tx ++ bannerMsg, pending := none } }) ∧
  (∀ s : State, s.env.grant = false →
    exec .banner s = .refused .stuck) ∧
  (∀ (i : Instr) (s t : State), s.phase ≠ Phase.boot → exec i s = .next t → t.phase ≠ Phase.boot)

/-- 42_sequencer_report.md R192: the dispatch in phase `DONE` is on `len` alone. -/
def Obligations.DispatchOnEmptiness : Prop :=
  ∀ s : State, s.phase = Phase.done → s.env.pending = none →
    (0 < s.len.toNat → selected s = .ok .crcInit) ∧ (s.len.toNat = 0 → selected s = .ok .reportNodata)

/-- 42_sequencer_report.md R193: REPORT_NODATA; with no non-empty frame reported since the last reset, which left `before`
records on RES, it reports the reset value. While the sink withholds there is no step of it (60_exceptions.md R233, R235),
in the model the outcome `stuck` (log 6), so no record is published before the wait ends (log 19). -/
def Obligations.ReportNodataEffect : Prop :=
  (∀ w : SelWord, decodeSel w = .ok .reportNodata ↔ w &&& 0x72#7 = 0x30#7) ∧
  (∀ s : State, s.env.pending = none → (selected s = .ok .reportNodata ↔ s.phase = Phase.done ∧ s.len.toNat = 0)) ∧
  (∀ s : State, s.env.grant = true →
    exec .reportNodata s =
      .next { s with phase := Phase.idle,
                     env := { s.env with res := s.env.res ++ [{ isNew := false, crc := s.lastCrc }],
                                         tx := s.env.tx ++ nodataMsg s.lastCrc, pending := none } }) ∧
  (∀ s : State, s.env.grant = false →
    exec .reportNodata s = .refused .stuck) ∧
  (∀ (before : Nat) (s : State), HeldSince before s → (∀ r ∈ s.env.res.drop before, r.isNew = false) → s.env.pending = none →
    selected s = .ok .reportNodata → s.lastCrc = 0x00000000#32)

/-- 42_sequencer_report.md R194: REPORT_UPDATED; it reports `compute` of this cycle's frame. While the sink withholds
there is no step of it (60_exceptions.md R233, R235), in the model the outcome `stuck` (log 6), so no record is published
before the wait ends (log 19). -/
def Obligations.ReportUpdatedEffect : Prop :=
  (∀ w : SelWord, decodeSel w = .ok .reportUpdated ↔ w &&& 0x70#7 = 0x50#7) ∧
  (∀ s : State, s.env.pending = none → (selected s = .ok .reportUpdated ↔ s.phase = Phase.report)) ∧
  (∀ s : State, s.env.grant = true →
    exec .reportUpdated s =
      .next { s with phase := Phase.idle,
                     env := { s.env with res := s.env.res ++ [{ isNew := true, crc := s.lastCrc }],
                                         tx := s.env.tx ++ updatedMsg s.lastCrc, pending := none } }) ∧
  (∀ s : State, s.env.grant = false →
    exec .reportUpdated s = .refused .stuck) ∧
  (∀ (i : Instr) (s t : State), s.phase ≠ Phase.report → exec i s = .next t → t.phase = Phase.report → i = .crcFinal) ∧
  (∀ s : State, PassInv s → s.env.pending = none → selected s = .ok .reportUpdated → s.lastCrc = compute (frameBytes s))

/-- 30_encoding.md R100, R102, R103: the message constants, character for character, their lengths, and the two report
messages made of them. -/
def Obligations.MessageTexts : Prop :=
  bannerMsg = "Sequential CRC Calculator Started\r\n".toList.map (fun c => BitVec.ofNat 8 c.toNat) ∧
  readyMsg = "UART Ready. Send data...\r\n".toList.map (fun c => BitVec.ofNat 8 c.toNat) ∧
  updatedPfx = "Updated CRC in Hex is : 0x".toList.map (fun c => BitVec.ofNat 8 c.toNat) ∧
  nodataPfx =
    "No Data Received, Last Calculated CRC in Hex is : 0x".toList.map (fun c => BitVec.ofNat 8 c.toNat) ∧
  crlf = [0x0D#8, 0x0A#8] ∧
  bannerMsg.length = 35 ∧ readyMsg.length = 26 ∧ updatedPfx.length = 26 ∧ nodataPfx.length = 52 ∧
  (∀ v, updatedMsg v = updatedPfx ++ hex8 v ++ crlf ∧ (updatedMsg v).length = 36) ∧
  (∀ v, nodataMsg v = nodataPfx ++ hex8 v ++ crlf ∧ (nodataMsg v).length = 62)

/-- 30_encoding.md R101: the digits of a word, most significant first, upper case, eight of them. -/
def Obligations.HexDigitsOfWord : Prop :=
  ∀ v : Word, (hex8 v).length = 8 ∧
    ∀ k, k < 8 →
      (v.toNat / 16 ^ (7 - k) % 16 < 10 → ((hex8 v)[k]?).map BitVec.toNat = some (0x30 + v.toNat / 16 ^ (7 - k) % 16)) ∧
      (10 ≤ v.toNat / 16 ^ (7 - k) % 16 →
        ((hex8 v)[k]?).map BitVec.toNat = some (0x41 + (v.toNat / 16 ^ (7 - k) % 16 - 10)))

/-- The text of a report tells its record: distinct records have distinct messages (30_encoding.md R101 to R103, R106). -/
def Obligations.ReportTextTellsRecord : Prop :=
  ∀ r q : ResRecord, reportMsg r = reportMsg q → r = q

/-- 42_sequencer_report.md R190: the phase graph has no other edge; an operation that waits stays where it is. -/
def Obligations.PhaseGraph : Prop :=
  ∀ s t : State, Inv s → (nextMove s).rst = none → step s = .next t →
    (t.env.pending ≠ none ∧ t.phase = s.phase) ∨
    (s.phase, t.phase) ∈ [(Phase.boot, Phase.idle), (Phase.idle, Phase.collect), (Phase.collect, Phase.collect),
      (Phase.collect, Phase.done), (Phase.done, Phase.crc), (Phase.done, Phase.idle), (Phase.crc, Phase.crc),
      (Phase.crc, Phase.report), (Phase.report, Phase.idle)]

/-- 42_sequencer_report.md R199: one cycle, whatever the byte source answers: its outputs, its `last_crc` and the
operations it performs are those of the big-step `cycle` for the frame the answers collect. -/
def Obligations.CycleRefinesBigStep : Prop :=
  ∀ s : State, s.phase = Phase.idle → s.env.pending = none → FairFor 2052101 s →
    ∃ s1 k frame n t, run 1 s = .next s1 ∧ collect (answersOf k s1) = some (frame, k) ∧ k ≤ 2048000 ∧
      n = (cycleOps (answersOf k s1) frame.length).length ∧ run n s = .next t ∧ t.phase = Phase.idle ∧
      opsOfRun n s = cycleOps (answersOf k s1) frame.length ∧
      t.lastCrc = (cycleOf s.lastCrc frame).lastCrc ∧ t.env.tx = s.env.tx ++ (cycleOf s.lastCrc frame).tx ∧
      t.env.res = s.env.res ++ [(cycleOf s.lastCrc frame).record]

/-! ### Frames: what an operation leaves unchanged -/

/-- What each operation leaves unchanged when it answers a next state: registers (10_state.md R20, column "written by"),
every cell of `FRAME` but the one at `len` that RX_BYTE writes, the streams and the time. -/
def Obligations.OperationFrames : Prop :=
  ∀ (i : Instr) (s t : State), exec i s = .next t →
    (i ≠ .crcInit → i ≠ .crcByte → t.crc = s.crc ∧ t.idx = s.idx) ∧
    (i ≠ .crcFinal → t.lastCrc = s.lastCrc) ∧
    (i ≠ .cycleStart → i ≠ .rxByte → t.len = s.len) ∧
    (i ≠ .cycleStart → i ≠ .rxByte → i ≠ .idleTick → t.idle = s.idle) ∧
    (∀ a, ¬ (i = .rxByte ∧ a = s.len.toNat) → cell t a = cell s a) ∧
    (i ≠ .rxByte → t.frame = s.frame ∧ t.env.rxQueue = s.env.rxQueue) ∧
    (i ≠ .idleTick → t.env.time = s.env.time) ∧
    (sends i = false → t.env.tx = s.env.tx) ∧
    (i ≠ .reportNodata → i ≠ .reportUpdated → t.env.res = s.env.res) ∧
    (t.env.grant = s.env.grant ∧ t.env.script = s.env.script ∧ t.env.moves = s.env.moves ∧
      t.env.resets = s.env.resets)

/-- 20_memory.md R66 d, 70_reset_and_hazards.md R253: outside phase `COLLECT` no byte is taken from the RX queue and
`FRAME` does not change. -/
def Obligations.NoPollOutsideCollect : Prop :=
  ∀ s t : State, Inv s → (nextMove s).rst = none → s.phase ≠ Phase.collect → step s = .next t →
    t.frame = s.frame ∧ t.env.rxQueue = s.env.rxQueue.drop (nextMove s).lost ++ (nextMove s).arrive

/-- 20_memory.md R64: the TX and RES streams only grow at their end, in every step, the reset event among them. -/
def Obligations.StreamsOnlyGrow : Prop :=
  ∀ s t : State, step s = .next t →
    (∃ x, t.env.tx = s.env.tx ++ x) ∧ (∃ y, t.env.res = s.env.res ++ y) ∧ s.env.time ≤ t.env.time

/-! ### Waiting and reset -/

/-- 60_exceptions.md R233, R235: the block is stuck exactly in an operation that sends or sleeps, while the environment
withholds; it then takes no step, performs nothing, polls no more and leaves everything as it was, for any number of moves
of the environment. That those moves are steps of the machine, with the request outstanding, is log 6. -/
def Obligations.StuckStaysStuck : Prop :=
  (∀ (i : Instr) (s : State), exec i s = .refused .stuck ↔
    s.env.grant = false ∧
      (sends i = true ∨ (i = .idleTick ∧ (s.env.pending = some .idleTick ∨ s.env.rxQueue = [])))) ∧
  (∀ (i : Instr) (s t : State), exec i s = .next t → t.env.pending = s.env.pending ∨ t.env.pending = none) ∧
  (∀ s : State, (nextMove s).rst = none → blockStep (envMoved s) = .refused .stuck →
    performed? s = none ∧ ∃ i, selected (envMoved s) = .ok i ∧
      step s = .next ((envMoved s).setEnv ((envMoved s).env.setPending (some i)))) ∧
  (∀ (n : Nat) (s : State) (i : Instr), s.env.pending = some i → (sends i = true ∨ i = .idleTick) →
    s.phase.toNat ≤ 5 → (∀ k, k < n → (moveAt s k).grants = false ∧ (moveAt s k).rst = none) →
    opsOfRun n s = [] ∧ ∃ t, run n s = .next t ∧ t.env.pending = some i ∧ t.crc = s.crc ∧ t.lastCrc = s.lastCrc ∧ t.len = s.len ∧
      t.idle = s.idle ∧ t.idx = s.idx ∧ t.phase = s.phase ∧ t.frame = s.frame ∧ t.env.tx = s.env.tx ∧
      t.env.res = s.env.res ∧ t.env.time = s.env.time ∧
      ((∀ k, k < n → (moveAt s k).lost = 0) → ∃ arrived, t.env.rxQueue = s.env.rxQueue ++ arrived))

/-- 10_state.md R42 at `State.reset`: the values the spec gives, and no output in a transfer. -/
def Obligations.ResetValues : Prop :=
  State.reset.phase = 0#3 ∧ State.reset.len = 0#13 ∧ State.reset.idle = 0#9 ∧ State.reset.idx = 0#13 ∧
  State.reset.lastCrc = 0x00000000#32 ∧ slpReq State.reset = false ∧ txValid State.reset = false

/-- 70_reset_and_hazards.md R250: reset may come in any state; every register is as after reset, no request is
outstanding, a message half sent stays half sent, and the environment is not reset with the block (log 7). -/
def Obligations.ResetInAnyState : Prop :=
  ∀ (s : State) (p : Nat), (nextMove s).rst = some p →
    ∃ t, step s = .next t ∧
      t.phase = 0#3 ∧ t.len = 0#13 ∧ t.idle = 0#9 ∧ t.idx = 0#13 ∧ t.lastCrc = 0x00000000#32 ∧
      slpReq t = false ∧ txValid t = false ∧ (∀ a, t.frame.read? a = none) ∧
      (∃ sent, t.env.tx = s.env.tx ++ sent ∧
        (sent = [] ∨ ∃ i, selected (envMoved s) = .ok i ∧ sent <+: messageOf i s)) ∧
      (∃ records, t.env.res = s.env.res ++ records ∧ records.length ≤ 1) ∧
      (t.env.rxQueue = (envMoved s).env.rxQueue ∨ t.env.rxQueue = (envMoved s).env.rxQueue.tail) ∧
      (p = 0 → t.env.tx = s.env.tx ∧ t.env.res = s.env.res ∧ t.env.time = s.env.time ∧
        t.env.rxQueue = (envMoved s).env.rxQueue)

/-- 70_reset_and_hazards.md R251: the start-up sequence, BANNER and then CYCLE_START. -/
def Obligations.StartUpSequence : Prop :=
  ∀ m1 m2 : EnvMove, EnvMove.fair m1 = true → EnvMove.fair m2 = true →
    opsOfRun 2 (resetWithScript [m1, m2]) = [.banner, .cycleStart] ∧
    ∃ t, run 2 (resetWithScript [m1, m2]) = .next t ∧ t.env.tx = bannerMsg ++ readyMsg ∧ t.env.tx.length = 61 ∧
      t.phase = Phase.collect ∧ t.len = 0#13 ∧ t.idle = 0#9 ∧ pollMade t = true

/-! ### Invariants of every step -/

/-- 10_state.md R44 at reset. -/
def Obligations.InvAtReset : Prop := Inv State.reset

/-- 10_state.md R44: every step keeps the invariant, whatever the environment does. -/
def Obligations.StepKeepsInv : Prop :=
  ∀ s t : State, Inv s → step s = .next t → Inv t

/-- 60_exceptions.md R220, R235: where the invariant holds the block's own step is a next state, or none because it is
stuck (R233); never a fault or another refusal. The machine's step is then a next state, in a run of any length: a stuck
block lets the environment's moves go on (log 6), so this does not say that the loop gets on. -/
def Obligations.NoFaultWhereInv : Prop :=
  ∀ s : State, Inv s →
    ((∃ t, blockStep (envMoved s) = .next t) ∨ blockStep (envMoved s) = .refused .stuck) ∧
    (∃ t, step s = .next t) ∧ ∀ n, ∃ t, run n s = .next t ∧ Inv t

/-- 10_state.md R44 e and h: the accesses lie inside `FRAME` and no counter wraps. -/
def Obligations.AccessesInsideAndNoWrap : Prop :=
  ∀ (s : State) (i : Instr), Inv s → selected s = .ok i →
    (i = .rxByte → s.len.toNat < 4096 ∧ (s.len + 1#13).toNat = s.len.toNat + 1) ∧
    (i = .crcByte → s.idx.toNat < s.len.toNat ∧ s.idx.toNat < 4096 ∧ (s.idx + 1#13).toNat = s.idx.toNat + 1) ∧
    (i = .idleTick → s.idle.toNat < 500 ∧ (s.idle + 1#9).toNat = s.idle.toNat + 1)

/-- The three invariants over the outputs and the pass hold at reset. -/
def Obligations.OutputAndPassInvAtReset : Prop :=
  OutputInv State.reset ∧ PassInv State.reset ∧ HeldSince 0 State.reset

/-- 40_crc32_engine.md R141: the register is the checksum of the bytes consumed so far, and what is reported is that of
the whole frame; every step keeps it. -/
def Obligations.StepKeepsPassInv : Prop :=
  ∀ s t : State, Inv s → PassInv s → step s = .next t → PassInv t

/-- 42_sequencer_report.md R197: the TX stream is the banner, then for every record the prompt and its message, then the
prompt of the cycle in progress; every step without reset keeps it. -/
def Obligations.StepKeepsOutputShape : Prop :=
  ∀ s t : State, Inv s → OutputInv s → (nextMove s).rst = none → step s = .next t → OutputInv t

/-- 42_sequencer_report.md R195, R196: `last_crc` is held between non-empty frames. A step without reset keeps what is held
since the last reset, and after a reset event it is the reset value, whatever was published before. -/
def Obligations.StepKeepsHeldCrc : Prop :=
  ∀ s t : State, step s = .next t →
    (∀ before, Inv s → HeldSince before s → (nextMove s).rst = none → HeldSince before t) ∧
    (∀ p, (nextMove s).rst = some p → HeldSince t.env.res.length t)

/-- 70_reset_and_hazards.md R260, 10_state.md R21: the dead cells of `FRAME` and the dead values of `crc` and `idx` never
reach an output: states alike but for them have steps alike but for them. -/
def Obligations.DeadStateInvisible : Prop :=
  ∀ s t : State, Inv s → Inv t → SameVisible s t → SameOutcome SameVisible (step s) (step t)

/-- 30_encoding.md R90, R91, R107: the word of a trace line is one of the row of the operation performed, also where the
block has waited inside it and bytes have arrived since: `c_rx` is 0 there, no poll being made (log 22). -/
def Obligations.PerformedWordIsOfItsRow : Prop :=
  (∀ s : State, s.env.pending ≠ none → cRx s = false ∧ pollMade s = false) ∧
  (∀ (s : State) (i : Instr), Inv s → performed? s = some i →
    selWord (envMoved s) &&& i.mask = encode i ∧ decodeSel (selWord (envMoved s)) = .ok i)
end

