-- ==== Sys2Proof/Laws/State.lean ====
section
/-! SUPPORT. One lemma per field per update of the state and of the environment, each true by rfl, so that no later proof
unfolds a record update. -/

namespace Sys2Proof.Machine

@[simp] theorem Env.setRxQueue_rxQueue (e : Env) (v : List Byte) : (e.setRxQueue v).rxQueue = v := rfl
@[simp] theorem Env.setRxQueue_time (e : Env) (v : List Byte) : (e.setRxQueue v).time = e.time := rfl
@[simp] theorem Env.setRxQueue_tx (e : Env) (v : List Byte) : (e.setRxQueue v).tx = e.tx := rfl
@[simp] theorem Env.setRxQueue_res (e : Env) (v : List Byte) : (e.setRxQueue v).res = e.res := rfl
@[simp] theorem Env.setRxQueue_grant (e : Env) (v : List Byte) : (e.setRxQueue v).grant = e.grant := rfl
@[simp] theorem Env.setRxQueue_pending (e : Env) (v : List Byte) : (e.setRxQueue v).pending = e.pending := rfl
@[simp] theorem Env.setRxQueue_script (e : Env) (v : List Byte) : (e.setRxQueue v).script = e.script := rfl
@[simp] theorem Env.setRxQueue_moves (e : Env) (v : List Byte) : (e.setRxQueue v).moves = e.moves := rfl
@[simp] theorem Env.setRxQueue_resets (e : Env) (v : List Byte) : (e.setRxQueue v).resets = e.resets := rfl

@[simp] theorem Env.setTime_rxQueue (e : Env) (v : Nat) : (e.setTime v).rxQueue = e.rxQueue := rfl
@[simp] theorem Env.setTime_time (e : Env) (v : Nat) : (e.setTime v).time = v := rfl
@[simp] theorem Env.setTime_tx (e : Env) (v : Nat) : (e.setTime v).tx = e.tx := rfl
@[simp] theorem Env.setTime_res (e : Env) (v : Nat) : (e.setTime v).res = e.res := rfl
@[simp] theorem Env.setTime_grant (e : Env) (v : Nat) : (e.setTime v).grant = e.grant := rfl
@[simp] theorem Env.setTime_pending (e : Env) (v : Nat) : (e.setTime v).pending = e.pending := rfl
@[simp] theorem Env.setTime_script (e : Env) (v : Nat) : (e.setTime v).script = e.script := rfl
@[simp] theorem Env.setTime_moves (e : Env) (v : Nat) : (e.setTime v).moves = e.moves := rfl
@[simp] theorem Env.setTime_resets (e : Env) (v : Nat) : (e.setTime v).resets = e.resets := rfl

@[simp] theorem Env.setTx_rxQueue (e : Env) (v : List Byte) : (e.setTx v).rxQueue = e.rxQueue := rfl
@[simp] theorem Env.setTx_time (e : Env) (v : List Byte) : (e.setTx v).time = e.time := rfl
@[simp] theorem Env.setTx_tx (e : Env) (v : List Byte) : (e.setTx v).tx = v := rfl
@[simp] theorem Env.setTx_res (e : Env) (v : List Byte) : (e.setTx v).res = e.res := rfl
@[simp] theorem Env.setTx_grant (e : Env) (v : List Byte) : (e.setTx v).grant = e.grant := rfl
@[simp] theorem Env.setTx_pending (e : Env) (v : List Byte) : (e.setTx v).pending = e.pending := rfl
@[simp] theorem Env.setTx_script (e : Env) (v : List Byte) : (e.setTx v).script = e.script := rfl
@[simp] theorem Env.setTx_moves (e : Env) (v : List Byte) : (e.setTx v).moves = e.moves := rfl
@[simp] theorem Env.setTx_resets (e : Env) (v : List Byte) : (e.setTx v).resets = e.resets := rfl

@[simp] theorem Env.setRes_rxQueue (e : Env) (v : List ResRecord) : (e.setRes v).rxQueue = e.rxQueue := rfl
@[simp] theorem Env.setRes_time (e : Env) (v : List ResRecord) : (e.setRes v).time = e.time := rfl
@[simp] theorem Env.setRes_tx (e : Env) (v : List ResRecord) : (e.setRes v).tx = e.tx := rfl
@[simp] theorem Env.setRes_res (e : Env) (v : List ResRecord) : (e.setRes v).res = v := rfl
@[simp] theorem Env.setRes_grant (e : Env) (v : List ResRecord) : (e.setRes v).grant = e.grant := rfl
@[simp] theorem Env.setRes_pending (e : Env) (v : List ResRecord) : (e.setRes v).pending = e.pending := rfl
@[simp] theorem Env.setRes_script (e : Env) (v : List ResRecord) : (e.setRes v).script = e.script := rfl
@[simp] theorem Env.setRes_moves (e : Env) (v : List ResRecord) : (e.setRes v).moves = e.moves := rfl
@[simp] theorem Env.setRes_resets (e : Env) (v : List ResRecord) : (e.setRes v).resets = e.resets := rfl

@[simp] theorem Env.setGrant_rxQueue (e : Env) (v : Bool) : (e.setGrant v).rxQueue = e.rxQueue := rfl
@[simp] theorem Env.setGrant_time (e : Env) (v : Bool) : (e.setGrant v).time = e.time := rfl
@[simp] theorem Env.setGrant_tx (e : Env) (v : Bool) : (e.setGrant v).tx = e.tx := rfl
@[simp] theorem Env.setGrant_res (e : Env) (v : Bool) : (e.setGrant v).res = e.res := rfl
@[simp] theorem Env.setGrant_grant (e : Env) (v : Bool) : (e.setGrant v).grant = v := rfl
@[simp] theorem Env.setGrant_pending (e : Env) (v : Bool) : (e.setGrant v).pending = e.pending := rfl
@[simp] theorem Env.setGrant_script (e : Env) (v : Bool) : (e.setGrant v).script = e.script := rfl
@[simp] theorem Env.setGrant_moves (e : Env) (v : Bool) : (e.setGrant v).moves = e.moves := rfl
@[simp] theorem Env.setGrant_resets (e : Env) (v : Bool) : (e.setGrant v).resets = e.resets := rfl

@[simp] theorem Env.setPending_rxQueue (e : Env) (v : Option Instr) : (e.setPending v).rxQueue = e.rxQueue := rfl
@[simp] theorem Env.setPending_time (e : Env) (v : Option Instr) : (e.setPending v).time = e.time := rfl
@[simp] theorem Env.setPending_tx (e : Env) (v : Option Instr) : (e.setPending v).tx = e.tx := rfl
@[simp] theorem Env.setPending_res (e : Env) (v : Option Instr) : (e.setPending v).res = e.res := rfl
@[simp] theorem Env.setPending_grant (e : Env) (v : Option Instr) : (e.setPending v).grant = e.grant := rfl
@[simp] theorem Env.setPending_pending (e : Env) (v : Option Instr) : (e.setPending v).pending = v := rfl
@[simp] theorem Env.setPending_script (e : Env) (v : Option Instr) : (e.setPending v).script = e.script := rfl
@[simp] theorem Env.setPending_moves (e : Env) (v : Option Instr) : (e.setPending v).moves = e.moves := rfl
@[simp] theorem Env.setPending_resets (e : Env) (v : Option Instr) : (e.setPending v).resets = e.resets := rfl

@[simp] theorem Env.setScript_rxQueue (e : Env) (v : List EnvMove) : (e.setScript v).rxQueue = e.rxQueue := rfl
@[simp] theorem Env.setScript_time (e : Env) (v : List EnvMove) : (e.setScript v).time = e.time := rfl
@[simp] theorem Env.setScript_tx (e : Env) (v : List EnvMove) : (e.setScript v).tx = e.tx := rfl
@[simp] theorem Env.setScript_res (e : Env) (v : List EnvMove) : (e.setScript v).res = e.res := rfl
@[simp] theorem Env.setScript_grant (e : Env) (v : List EnvMove) : (e.setScript v).grant = e.grant := rfl
@[simp] theorem Env.setScript_pending (e : Env) (v : List EnvMove) : (e.setScript v).pending = e.pending := rfl
@[simp] theorem Env.setScript_script (e : Env) (v : List EnvMove) : (e.setScript v).script = v := rfl
@[simp] theorem Env.setScript_moves (e : Env) (v : List EnvMove) : (e.setScript v).moves = e.moves := rfl
@[simp] theorem Env.setScript_resets (e : Env) (v : List EnvMove) : (e.setScript v).resets = e.resets := rfl

@[simp] theorem Env.setMoves_rxQueue (e : Env) (v : Nat) : (e.setMoves v).rxQueue = e.rxQueue := rfl
@[simp] theorem Env.setMoves_time (e : Env) (v : Nat) : (e.setMoves v).time = e.time := rfl
@[simp] theorem Env.setMoves_tx (e : Env) (v : Nat) : (e.setMoves v).tx = e.tx := rfl
@[simp] theorem Env.setMoves_res (e : Env) (v : Nat) : (e.setMoves v).res = e.res := rfl
@[simp] theorem Env.setMoves_grant (e : Env) (v : Nat) : (e.setMoves v).grant = e.grant := rfl
@[simp] theorem Env.setMoves_pending (e : Env) (v : Nat) : (e.setMoves v).pending = e.pending := rfl
@[simp] theorem Env.setMoves_script (e : Env) (v : Nat) : (e.setMoves v).script = e.script := rfl
@[simp] theorem Env.setMoves_moves (e : Env) (v : Nat) : (e.setMoves v).moves = v := rfl
@[simp] theorem Env.setMoves_resets (e : Env) (v : Nat) : (e.setMoves v).resets = e.resets := rfl

@[simp] theorem Env.setResets_rxQueue (e : Env) (v : Nat) : (e.setResets v).rxQueue = e.rxQueue := rfl
@[simp] theorem Env.setResets_time (e : Env) (v : Nat) : (e.setResets v).time = e.time := rfl
@[simp] theorem Env.setResets_tx (e : Env) (v : Nat) : (e.setResets v).tx = e.tx := rfl
@[simp] theorem Env.setResets_res (e : Env) (v : Nat) : (e.setResets v).res = e.res := rfl
@[simp] theorem Env.setResets_grant (e : Env) (v : Nat) : (e.setResets v).grant = e.grant := rfl
@[simp] theorem Env.setResets_pending (e : Env) (v : Nat) : (e.setResets v).pending = e.pending := rfl
@[simp] theorem Env.setResets_script (e : Env) (v : Nat) : (e.setResets v).script = e.script := rfl
@[simp] theorem Env.setResets_moves (e : Env) (v : Nat) : (e.setResets v).moves = e.moves := rfl
@[simp] theorem Env.setResets_resets (e : Env) (v : Nat) : (e.setResets v).resets = v := rfl

@[simp] theorem State.setCrc_crc (s : State) (v : Word) : (s.setCrc v).crc = v := rfl
@[simp] theorem State.setCrc_lastCrc (s : State) (v : Word) : (s.setCrc v).lastCrc = s.lastCrc := rfl
@[simp] theorem State.setCrc_len (s : State) (v : Word) : (s.setCrc v).len = s.len := rfl
@[simp] theorem State.setCrc_idle (s : State) (v : Word) : (s.setCrc v).idle = s.idle := rfl
@[simp] theorem State.setCrc_idx (s : State) (v : Word) : (s.setCrc v).idx = s.idx := rfl
@[simp] theorem State.setCrc_phase (s : State) (v : Word) : (s.setCrc v).phase = s.phase := rfl
@[simp] theorem State.setCrc_frame (s : State) (v : Word) : (s.setCrc v).frame = s.frame := rfl
@[simp] theorem State.setCrc_env (s : State) (v : Word) : (s.setCrc v).env = s.env := rfl

@[simp] theorem State.setLastCrc_crc (s : State) (v : Word) : (s.setLastCrc v).crc = s.crc := rfl
@[simp] theorem State.setLastCrc_lastCrc (s : State) (v : Word) : (s.setLastCrc v).lastCrc = v := rfl
@[simp] theorem State.setLastCrc_len (s : State) (v : Word) : (s.setLastCrc v).len = s.len := rfl
@[simp] theorem State.setLastCrc_idle (s : State) (v : Word) : (s.setLastCrc v).idle = s.idle := rfl
@[simp] theorem State.setLastCrc_idx (s : State) (v : Word) : (s.setLastCrc v).idx = s.idx := rfl
@[simp] theorem State.setLastCrc_phase (s : State) (v : Word) : (s.setLastCrc v).phase = s.phase := rfl
@[simp] theorem State.setLastCrc_frame (s : State) (v : Word) : (s.setLastCrc v).frame = s.frame := rfl
@[simp] theorem State.setLastCrc_env (s : State) (v : Word) : (s.setLastCrc v).env = s.env := rfl

@[simp] theorem State.setLen_crc (s : State) (v : Count) : (s.setLen v).crc = s.crc := rfl
@[simp] theorem State.setLen_lastCrc (s : State) (v : Count) : (s.setLen v).lastCrc = s.lastCrc := rfl
@[simp] theorem State.setLen_len (s : State) (v : Count) : (s.setLen v).len = v := rfl
@[simp] theorem State.setLen_idle (s : State) (v : Count) : (s.setLen v).idle = s.idle := rfl
@[simp] theorem State.setLen_idx (s : State) (v : Count) : (s.setLen v).idx = s.idx := rfl
@[simp] theorem State.setLen_phase (s : State) (v : Count) : (s.setLen v).phase = s.phase := rfl
@[simp] theorem State.setLen_frame (s : State) (v : Count) : (s.setLen v).frame = s.frame := rfl
@[simp] theorem State.setLen_env (s : State) (v : Count) : (s.setLen v).env = s.env := rfl

@[simp] theorem State.setIdle_crc (s : State) (v : IdleCount) : (s.setIdle v).crc = s.crc := rfl
@[simp] theorem State.setIdle_lastCrc (s : State) (v : IdleCount) : (s.setIdle v).lastCrc = s.lastCrc := rfl
@[simp] theorem State.setIdle_len (s : State) (v : IdleCount) : (s.setIdle v).len = s.len := rfl
@[simp] theorem State.setIdle_idle (s : State) (v : IdleCount) : (s.setIdle v).idle = v := rfl
@[simp] theorem State.setIdle_idx (s : State) (v : IdleCount) : (s.setIdle v).idx = s.idx := rfl
@[simp] theorem State.setIdle_phase (s : State) (v : IdleCount) : (s.setIdle v).phase = s.phase := rfl
@[simp] theorem State.setIdle_frame (s : State) (v : IdleCount) : (s.setIdle v).frame = s.frame := rfl
@[simp] theorem State.setIdle_env (s : State) (v : IdleCount) : (s.setIdle v).env = s.env := rfl

@[simp] theorem State.setIdx_crc (s : State) (v : Count) : (s.setIdx v).crc = s.crc := rfl
@[simp] theorem State.setIdx_lastCrc (s : State) (v : Count) : (s.setIdx v).lastCrc = s.lastCrc := rfl
@[simp] theorem State.setIdx_len (s : State) (v : Count) : (s.setIdx v).len = s.len := rfl
@[simp] theorem State.setIdx_idle (s : State) (v : Count) : (s.setIdx v).idle = s.idle := rfl
@[simp] theorem State.setIdx_idx (s : State) (v : Count) : (s.setIdx v).idx = v := rfl
@[simp] theorem State.setIdx_phase (s : State) (v : Count) : (s.setIdx v).phase = s.phase := rfl
@[simp] theorem State.setIdx_frame (s : State) (v : Count) : (s.setIdx v).frame = s.frame := rfl
@[simp] theorem State.setIdx_env (s : State) (v : Count) : (s.setIdx v).env = s.env := rfl

@[simp] theorem State.setPhase_crc (s : State) (v : PhaseBits) : (s.setPhase v).crc = s.crc := rfl
@[simp] theorem State.setPhase_lastCrc (s : State) (v : PhaseBits) : (s.setPhase v).lastCrc = s.lastCrc := rfl
@[simp] theorem State.setPhase_len (s : State) (v : PhaseBits) : (s.setPhase v).len = s.len := rfl
@[simp] theorem State.setPhase_idle (s : State) (v : PhaseBits) : (s.setPhase v).idle = s.idle := rfl
@[simp] theorem State.setPhase_idx (s : State) (v : PhaseBits) : (s.setPhase v).idx = s.idx := rfl
@[simp] theorem State.setPhase_phase (s : State) (v : PhaseBits) : (s.setPhase v).phase = v := rfl
@[simp] theorem State.setPhase_frame (s : State) (v : PhaseBits) : (s.setPhase v).frame = s.frame := rfl
@[simp] theorem State.setPhase_env (s : State) (v : PhaseBits) : (s.setPhase v).env = s.env := rfl

@[simp] theorem State.setFrame_crc (s : State) (v : Memory) : (s.setFrame v).crc = s.crc := rfl
@[simp] theorem State.setFrame_lastCrc (s : State) (v : Memory) : (s.setFrame v).lastCrc = s.lastCrc := rfl
@[simp] theorem State.setFrame_len (s : State) (v : Memory) : (s.setFrame v).len = s.len := rfl
@[simp] theorem State.setFrame_idle (s : State) (v : Memory) : (s.setFrame v).idle = s.idle := rfl
@[simp] theorem State.setFrame_idx (s : State) (v : Memory) : (s.setFrame v).idx = s.idx := rfl
@[simp] theorem State.setFrame_phase (s : State) (v : Memory) : (s.setFrame v).phase = s.phase := rfl
@[simp] theorem State.setFrame_frame (s : State) (v : Memory) : (s.setFrame v).frame = v := rfl
@[simp] theorem State.setFrame_env (s : State) (v : Memory) : (s.setFrame v).env = s.env := rfl

@[simp] theorem State.setEnv_crc (s : State) (v : Env) : (s.setEnv v).crc = s.crc := rfl
@[simp] theorem State.setEnv_lastCrc (s : State) (v : Env) : (s.setEnv v).lastCrc = s.lastCrc := rfl
@[simp] theorem State.setEnv_len (s : State) (v : Env) : (s.setEnv v).len = s.len := rfl
@[simp] theorem State.setEnv_idle (s : State) (v : Env) : (s.setEnv v).idle = s.idle := rfl
@[simp] theorem State.setEnv_idx (s : State) (v : Env) : (s.setEnv v).idx = s.idx := rfl
@[simp] theorem State.setEnv_phase (s : State) (v : Env) : (s.setEnv v).phase = s.phase := rfl
@[simp] theorem State.setEnv_frame (s : State) (v : Env) : (s.setEnv v).frame = s.frame := rfl
@[simp] theorem State.setEnv_env (s : State) (v : Env) : (s.setEnv v).env = v := rfl

end Sys2Proof.Machine
end

