-- ==== Sys2Proof/Laws/Memory.lean ====
section
/-! SUPPORT. The laws of the frame buffer: a read after a write, and the canonical form. -/

namespace Sys2Proof.Machine

theorem Memory.read?_write_same (m : Memory) (a : Nat) (v : Byte) : (m.write a v).read? a = some v := by
  induction m with
  | nil => simp [Memory.write, Memory.read?]
  | cons c rest ih =>
    obtain ⟨b, w⟩ := c
    simp only [Memory.write]
    split
    · simp [Memory.read?]
    · split
      · simp [Memory.read?]
      · rename_i _ hne
        simpa [Memory.read?, hne] using ih

theorem Memory.read?_write_other (m : Memory) (a b : Nat) (v : Byte) (h : b ≠ a) :
    (m.write a v).read? b = m.read? b := by
  induction m with
  | nil => simp [Memory.write, Memory.read?, h]
  | cons c rest ih =>
    obtain ⟨d, w⟩ := c
    simp only [Memory.write]
    split
    · simp [Memory.read?, h]
    · split
      · rename_i _ hd
        subst hd
        simp [Memory.read?, h]
      · simp only [Memory.read?, ih]

theorem Memory.wfFrom_mono {m : Memory} {lo hi : Nat} (h : Memory.wfFrom hi m = true) (hle : lo ≤ hi) :
    Memory.wfFrom lo m = true := by
  cases m with
  | nil => rfl
  | cons c rest =>
    obtain ⟨b, w⟩ := c
    simp only [Memory.wfFrom, Bool.and_eq_true, decide_eq_true_eq] at h ⊢
    exact ⟨⟨by omega, h.1.2⟩, h.2⟩

theorem Memory.wfFrom_write {m : Memory} {lo a : Nat} (v : Byte) (h : Memory.wfFrom lo m = true) (hlo : lo ≤ a)
    (ha : a < Config.maxDataLen) : Memory.wfFrom lo (m.write a v) = true := by
  induction m generalizing lo with
  | nil => simp [Memory.write, Memory.wfFrom, hlo, ha]
  | cons c rest ih =>
    obtain ⟨b, w⟩ := c
    have hc := h
    simp only [Memory.wfFrom, Bool.and_eq_true, decide_eq_true_eq] at h
    simp only [Memory.write]
    split
    · rename_i hab
      simp only [Memory.wfFrom, Bool.and_eq_true, decide_eq_true_eq]
      exact ⟨⟨hlo, ha⟩, ⟨by omega, h.1.2⟩, h.2⟩
    · split
      · rename_i _ hab
        subst hab
        simp only [Memory.wfFrom, Bool.and_eq_true, decide_eq_true_eq]
        exact ⟨⟨hlo, ha⟩, h.2⟩
      · rename_i h1 h2
        simp only [Memory.wfFrom, Bool.and_eq_true, decide_eq_true_eq]
        exact ⟨h.1, ih h.2 (by omega)⟩

/-- The one operation that changes the frame buffer keeps its canonical form. -/
theorem Memory.wf_write {m : Memory} {a : Nat} (v : Byte) (h : m.wf = true) (ha : a < Config.maxDataLen) :
    (m.write a v).wf = true :=
  Memory.wfFrom_write v h (Nat.zero_le a) ha

theorem Memory.read?_lt {m : Memory} {lo a : Nat} (h : Memory.wfFrom lo m = true) (hr : (m.read? a).isSome = true) :
    lo ≤ a ∧ a < Config.maxDataLen := by
  induction m generalizing lo with
  | nil => simp [Memory.read?] at hr
  | cons c rest ih =>
    obtain ⟨b, w⟩ := c
    simp only [Memory.wfFrom, Bool.and_eq_true, decide_eq_true_eq] at h
    simp only [Memory.read?] at hr
    split at hr
    · rename_i hab
      subst hab
      exact h.1
    · have := ih h.2 hr
      omega

/-- Equal memories are equal data: two canonical memories that read alike are one list. -/
theorem Memory.ext_of_wfFrom {m n : Memory} {lo : Nat} (hm : Memory.wfFrom lo m = true) (hn : Memory.wfFrom lo n = true)
    (h : ∀ a, m.read? a = n.read? a) : m = n := by
  induction m generalizing n lo with
  | nil =>
    cases n with
    | nil => rfl
    | cons c rest =>
      have := h c.1
      simp [Memory.read?] at this
  | cons c rest ih =>
    obtain ⟨b, w⟩ := c
    cases n with
    | nil =>
      have := h b
      simp [Memory.read?] at this
    | cons d rest' =>
      obtain ⟨b', w'⟩ := d
      simp only [Memory.wfFrom, Bool.and_eq_true, decide_eq_true_eq] at hm hn
      have hb : b = b' := by
        rcases Nat.lt_trichotomy b b' with hlt | heq | hgt
        · have h1 := h b
          have h2 : (Memory.read? ((b', w') :: rest') b) = none := by
            by_contra hne
            have hs : (Memory.read? rest' b).isSome = true := by
              simp only [Memory.read?, if_neg (Nat.ne_of_lt hlt)] at hne
              exact Option.isSome_iff_ne_none.mpr hne
            have := Memory.read?_lt hn.2 hs
            omega
          rw [h2] at h1
          simp [Memory.read?] at h1
        · exact heq
        · have h1 := h b'
          have h2 : (Memory.read? ((b, w) :: rest) b') = none := by
            by_contra hne
            have hs : (Memory.read? rest b').isSome = true := by
              simp only [Memory.read?, if_neg (Nat.ne_of_lt hgt)] at hne
              exact Option.isSome_iff_ne_none.mpr hne
            have := Memory.read?_lt hm.2 hs
            omega
          rw [h2] at h1
          simp [Memory.read?] at h1
      subst hb
      have hw : w = w' := by
        have := h b
        simpa [Memory.read?] using this
      subst hw
      congr 1
      refine ih hm.2 hn.2 fun a => ?_
      by_cases hab : a = b
      · subst hab
        have h1 : Memory.read? rest a = none := by
          by_contra hne
          have := Memory.read?_lt hm.2 (Option.isSome_iff_ne_none.mpr hne)
          omega
        have h2 : Memory.read? rest' a = none := by
          by_contra hne
          have := Memory.read?_lt hn.2 (Option.isSome_iff_ne_none.mpr hne)
          omega
        rw [h1, h2]
      · have := h a
        simpa [Memory.read?, hab] using this

theorem reset_memory_wf : State.reset.frame.wf = true := rfl

end Sys2Proof.Machine
end

