-- ==== Sys2Proof/Laws/Ops.lean ====
section
/-! SUPPORT. For each shared operation, what it can do, said once. -/

namespace Sys2Proof.Machine

/-! ### Memory -/

theorem memRead_ok_iff (s : State) (a : Count) (b : Byte) :
    memRead s a = .ok b ↔ a.toNat < Config.maxDataLen ∧ b = cell s a.toNat := by
  unfold memRead
  split <;> simp_all [eq_comm]

theorem memRead_error_iff (s : State) (a : Count) (f : Fault) :
    memRead s a = .error f ↔ Config.maxDataLen ≤ a.toNat ∧ f = .frameReadOutside a.toNat := by
  unfold memRead
  split <;> simp_all [eq_comm]

theorem memWrite_ok_iff (s t : State) (a : Count) (v : Byte) :
    memWrite s a v = .ok t ↔ a.toNat < Config.maxDataLen ∧ t = s.setFrame (s.frame.write a.toNat v) := by
  unfold memWrite
  split <;> simp_all [eq_comm]

theorem memWrite_error_iff (s : State) (a : Count) (v : Byte) (f : Fault) :
    memWrite s a v = .error f ↔ Config.maxDataLen ≤ a.toNat ∧ f = .frameWriteOutside a.toNat := by
  unfold memWrite
  split <;> simp_all [eq_comm]

/-- A cell depends on the frame buffer and on the number of resets only. -/
theorem cell_congr {s t : State} (hf : s.frame = t.frame) (hr : s.env.resets = t.env.resets) (a : Nat) :
    cell s a = cell t a := by
  simp [cell, hf, hr]

theorem cell_setFrame_write_same (s : State) (a : Nat) (v : Byte) : cell (s.setFrame (s.frame.write a v)) a = v := by
  simp [cell, Memory.read?_write_same]

theorem cell_setFrame_write_other (s : State) (a b : Nat) (v : Byte) (h : b ≠ a) :
    cell (s.setFrame (s.frame.write a v)) b = cell s b := by
  simp [cell, Memory.read?_write_other _ _ _ _ h]

theorem frameBytes_length (s : State) : (frameBytes s).length = s.len.toNat := by
  simp [frameBytes]

theorem frameBytes_getElem (s : State) (k : Nat) (h : k < (frameBytes s).length) : (frameBytes s)[k] = cell s k := by
  simp [frameBytes]

theorem frameBytes_eq_nil_iff (s : State) : frameBytes s = [] ↔ s.len.toNat = 0 := by
  rw [← List.length_eq_zero_iff, frameBytes_length]

theorem frameBytes_congr {s t : State} (hl : s.len = t.len) (h : ∀ a, a < s.len.toNat → cell s a = cell t a) :
    frameBytes s = frameBytes t := by
  unfold frameBytes
  rw [← hl]
  exact List.map_congr_left fun a ha => h a (List.mem_range.mp ha)

/-! ### Ports -/

theorem rxPoll_none_iff (s t : State) : rxPoll s = (none, t) ↔ s.env.rxQueue = [] ∧ t = s := by
  unfold rxPoll
  split <;> simp_all [eq_comm]

theorem rxPoll_some_iff (s t : State) (b : Byte) :
    rxPoll s = (some b, t) ↔ ∃ rest, s.env.rxQueue = b :: rest ∧ t = s.setEnv (s.env.setRxQueue rest) := by
  unfold rxPoll
  split
  · simp_all
  · rename_i c rest h
    simp only [h, List.cons.injEq, Prod.mk.injEq, Option.some.injEq]
    constructor
    · rintro ⟨rfl, rfl⟩
      exact ⟨rest, ⟨rfl, rfl⟩, rfl⟩
    · rintro ⟨r, ⟨rfl, rfl⟩, rfl⟩
      exact ⟨rfl, rfl⟩

/-- An operation that waits is performed whole, or there is no step of the block. -/
theorem awaitEnv_cases (s done : State) :
    (s.env.grant = true ∧ awaitEnv s done = .next (done.setEnv (done.env.setPending none))) ∨
    (s.env.grant = false ∧ awaitEnv s done = .refused .stuck) := by
  unfold awaitEnv
  cases h : s.env.grant <;> simp

theorem awaitEnv_granted {s done : State} (h : s.env.grant = true) :
    awaitEnv s done = .next (done.setEnv (done.env.setPending none)) := by
  simp [awaitEnv, h]

theorem awaitEnv_withheld {s done : State} (h : s.env.grant = false) : awaitEnv s done = .refused .stuck := by
  simp [awaitEnv, h]

theorem awaitEnv_next {s done t : State} (h : awaitEnv s done = .next t) :
    s.env.grant = true ∧ t = done.setEnv (done.env.setPending none) := by
  rcases awaitEnv_cases s done with ⟨hg, he⟩ | ⟨_, he⟩ <;> rw [he] at h
  · exact ⟨hg, (Host.Outcome.next.inj h).symm⟩
  · cases h

@[simp] theorem waiting_crc (i : Instr) (s : State) : (waiting i s).crc = s.crc := rfl
@[simp] theorem waiting_lastCrc (i : Instr) (s : State) : (waiting i s).lastCrc = s.lastCrc := rfl
@[simp] theorem waiting_len (i : Instr) (s : State) : (waiting i s).len = s.len := rfl
@[simp] theorem waiting_idle (i : Instr) (s : State) : (waiting i s).idle = s.idle := rfl
@[simp] theorem waiting_idx (i : Instr) (s : State) : (waiting i s).idx = s.idx := rfl
@[simp] theorem waiting_phase (i : Instr) (s : State) : (waiting i s).phase = s.phase := rfl
@[simp] theorem waiting_frame (i : Instr) (s : State) : (waiting i s).frame = s.frame := rfl
@[simp] theorem waiting_env (i : Instr) (s : State) : (waiting i s).env = s.env.setPending (some i) := rfl

/-! ### The environment's move -/

@[simp] theorem envMoved_crc (s : State) : (envMoved s).crc = s.crc := rfl
@[simp] theorem envMoved_lastCrc (s : State) : (envMoved s).lastCrc = s.lastCrc := rfl
@[simp] theorem envMoved_len (s : State) : (envMoved s).len = s.len := rfl
@[simp] theorem envMoved_idle (s : State) : (envMoved s).idle = s.idle := rfl
@[simp] theorem envMoved_idx (s : State) : (envMoved s).idx = s.idx := rfl
@[simp] theorem envMoved_phase (s : State) : (envMoved s).phase = s.phase := rfl
@[simp] theorem envMoved_frame (s : State) : (envMoved s).frame = s.frame := rfl
@[simp] theorem envMoved_rxQueue (s : State) :
    (envMoved s).env.rxQueue = s.env.rxQueue.drop (nextMove s).lost ++ (nextMove s).arrive := rfl
@[simp] theorem envMoved_time (s : State) : (envMoved s).env.time = s.env.time := rfl
@[simp] theorem envMoved_tx (s : State) : (envMoved s).env.tx = s.env.tx := rfl
@[simp] theorem envMoved_res (s : State) : (envMoved s).env.res = s.env.res := rfl
@[simp] theorem envMoved_grant (s : State) : (envMoved s).env.grant = (nextMove s).grants := rfl
@[simp] theorem envMoved_pending (s : State) : (envMoved s).env.pending = s.env.pending := rfl
@[simp] theorem envMoved_script (s : State) : (envMoved s).env.script = s.env.script.tail := rfl
@[simp] theorem envMoved_moves (s : State) : (envMoved s).env.moves = s.env.moves + 1 := rfl
@[simp] theorem envMoved_resets (s : State) : (envMoved s).env.resets = s.env.resets := rfl

theorem cell_envMoved (s : State) (a : Nat) : cell (envMoved s) a = cell s a := rfl

theorem frameBytes_envMoved (s : State) : frameBytes (envMoved s) = frameBytes s := rfl

theorem moveAt_zero (s : State) : moveAt s 0 = nextMove s := by
  unfold moveAt nextMove
  cases s.env.script <;> simp

/-- The moves ahead depend on the script and the count of moves only; after a step they are the same moves, one nearer. -/
theorem moveAt_succ {s t : State} (hs : t.env.script = s.env.script.tail) (hm : t.env.moves = s.env.moves + 1) (k : Nat) :
    moveAt t k = moveAt s (k + 1) := by
  unfold moveAt
  rw [hs, hm, List.getElem?_tail, Nat.add_right_comm s.env.moves 1 k, Nat.add_assoc]

/-! ### Reset -/

@[simp] theorem resetEvent_crc (s : State) (p : Nat) : (resetEvent s p).crc = Config.crcReset := rfl
@[simp] theorem resetEvent_lastCrc (s : State) (p : Nat) : (resetEvent s p).lastCrc = Config.lastCrcReset := rfl
@[simp] theorem resetEvent_len (s : State) (p : Nat) : (resetEvent s p).len = 0#13 := rfl
@[simp] theorem resetEvent_idle (s : State) (p : Nat) : (resetEvent s p).idle = 0#9 := rfl
@[simp] theorem resetEvent_idx (s : State) (p : Nat) : (resetEvent s p).idx = 0#13 := rfl
@[simp] theorem resetEvent_phase (s : State) (p : Nat) : (resetEvent s p).phase = Phase.boot := rfl
@[simp] theorem resetEvent_frame (s : State) (p : Nat) : (resetEvent s p).frame = [] := rfl
@[simp] theorem resetEvent_pending (s : State) (p : Nat) : (resetEvent s p).env.pending = none := rfl

/-- What an abandoned operation leaves of the environment's state that no operation writes. -/
theorem abandoned_keeps (i : Instr) (s : State) (p : Nat) :
    (abandoned i s p).script = s.env.script ∧ (abandoned i s p).moves = s.env.moves ∧
    (abandoned i s p).resets = s.env.resets ∧ (abandoned i s p).grant = s.env.grant := by
  cases i <;> simp only [abandoned, resEmit, rxPoll, sleepOnce] <;> repeat' split
  all_goals simp

theorem resetEvent_script (s : State) (p : Nat) : (resetEvent s p).env.script = s.env.script := by
  unfold resetEvent
  cases h : selected s with
  | ok i => simpa using (abandoned_keeps i s p).1
  | error e => simp

theorem resetEvent_moves (s : State) (p : Nat) : (resetEvent s p).env.moves = s.env.moves := by
  unfold resetEvent
  cases h : selected s with
  | ok i => simpa using (abandoned_keeps i s p).2.1
  | error e => simp

theorem resetEvent_resets (s : State) (p : Nat) : (resetEvent s p).env.resets = s.env.resets + 1 := by
  unfold resetEvent
  cases h : selected s with
  | ok i => simpa using (abandoned_keeps i s p).2.2.1
  | error e => simp

/-- All that an abandoned operation can leave on the ports: a first part of its message, at most one record, at most one
byte taken, no time undone; nothing where it had taken no action. -/
theorem abandoned_effect (i : Instr) (s : State) (p : Nat) :
    (∃ x, (abandoned i s p).tx = s.env.tx ++ x ∧ (x = [] ∨ x <+: messageOf i s)) ∧
    (∃ y, (abandoned i s p).res = s.env.res ++ y ∧ y.length ≤ 1) ∧
    s.env.time ≤ (abandoned i s p).time ∧
    ((abandoned i s p).rxQueue = s.env.rxQueue ∨ (abandoned i s p).rxQueue = s.env.rxQueue.tail) ∧
    (p = 0 → (abandoned i s p).tx = s.env.tx ∧ (abandoned i s p).res = s.env.res ∧
      (abandoned i s p).time = s.env.time ∧ (abandoned i s p).rxQueue = s.env.rxQueue) := by
  cases i
  case banner | cycleStart =>
    refine ⟨⟨(messageOf _ s).take p, rfl, .inr (List.take_prefix _ _)⟩, ⟨[], by simp [abandoned]⟩, le_rfl, .inl rfl,
      fun h => ?_⟩
    subst h
    simp [abandoned]
  case reportNodata | reportUpdated =>
    by_cases h : p = 0
    · subst h
      simp [abandoned]
    · simp [abandoned, h, resEmit]
      exact .inr (List.take_prefix _ _)
  case rxByte =>
    by_cases h : p = 0
    · subst h
      simp [abandoned]
    · cases hq : s.env.rxQueue <;> simp [abandoned, h, rxPoll, hq]
  case idleTick =>
    by_cases h : p = 0
    · subst h
      simp [abandoned]
    · simp [abandoned, h, sleepOnce]
  all_goals simp [abandoned]

end Sys2Proof.Machine
end

