-- ==== Sys2Proof/Laws/PerInstr.lean ====
section
/-! SUPPORT. Statements made operation by operation, over the operation as syntax. -/

namespace Sys2Proof

/-- The operation is well-formed, and every word with the bits its row fixes, whatever the bits its row does not look at,
decodes to it and is found by its row (30_encoding.md R90, R92). -/
def Laws.DecodesOwnWord.Statement (i : Instr) : Prop :=
  i.wellFormed = true ∧
    ∀ x : SelWord, decodeSel (encodeWith i x) = .ok i ∧ encodeWith i x &&& i.mask = encode i

/-- A check over the 128 values of the unread bits. -/
theorem Laws.decodesOwnWord_of_all {i : Instr} (hw : i.wellFormed = true)
    (h : ∀ x : Fin 128, (decodeSel (encodeWith i (BitVec.ofFin x))).toOption = some i ∧
      encodeWith i (BitVec.ofFin x) &&& i.mask = encode i) : Laws.DecodesOwnWord.Statement i := by
  refine ⟨hw, fun x => ?_⟩
  have hx := h x.toFin
  refine ⟨?_, hx.2⟩
  have h1 : (decodeSel (encodeWith i x)).toOption = some i := hx.1
  cases hd : decodeSel (encodeWith i x) with
  | ok j => simp_all [Except.toOption]
  | error e => simp_all [Except.toOption]

theorem Laws.DecodesOwnWord.banner : Laws.DecodesOwnWord.Statement .banner :=
  Laws.decodesOwnWord_of_all rfl (by decide)

theorem Laws.DecodesOwnWord.cycleStart : Laws.DecodesOwnWord.Statement .cycleStart :=
  Laws.decodesOwnWord_of_all rfl (by decide)

theorem Laws.DecodesOwnWord.rxByte : Laws.DecodesOwnWord.Statement .rxByte :=
  Laws.decodesOwnWord_of_all rfl (by decide)

theorem Laws.DecodesOwnWord.idleTick : Laws.DecodesOwnWord.Statement .idleTick :=
  Laws.decodesOwnWord_of_all rfl (by decide)

theorem Laws.DecodesOwnWord.collectEnd : Laws.DecodesOwnWord.Statement .collectEnd :=
  Laws.decodesOwnWord_of_all rfl (by decide)

theorem Laws.DecodesOwnWord.crcInit : Laws.DecodesOwnWord.Statement .crcInit :=
  Laws.decodesOwnWord_of_all rfl (by decide)

theorem Laws.DecodesOwnWord.reportNodata : Laws.DecodesOwnWord.Statement .reportNodata :=
  Laws.decodesOwnWord_of_all rfl (by decide)

theorem Laws.DecodesOwnWord.crcByte : Laws.DecodesOwnWord.Statement .crcByte :=
  Laws.decodesOwnWord_of_all rfl (by decide)

theorem Laws.DecodesOwnWord.crcFinal : Laws.DecodesOwnWord.Statement .crcFinal :=
  Laws.decodesOwnWord_of_all rfl (by decide)

theorem Laws.DecodesOwnWord.reportUpdated : Laws.DecodesOwnWord.Statement .reportUpdated :=
  Laws.decodesOwnWord_of_all rfl (by decide)

end Sys2Proof
end

