-- ==== Sys2Proof/Laws/Select.lean ====
section
/-! SUPPORT. The operation table as a function of the condition signals: which operation each phase selects. -/

namespace Sys2Proof.Machine

/-- The operation that the fields of a selection word select, read off the rows of 30_encoding.md R92 phase by phase. -/
def opOfFields (f : Sel) : Except DecodeError Instr :=
  match f.phase.toNat with
  | 0 => .ok .banner
  | 1 => .ok .cycleStart
  | 2 => .ok (if f.cRun then (if f.cRx then .rxByte else .idleTick) else .collectEnd)
  | 3 => .ok (if f.cNonempty then .crcInit else .reportNodata)
  | 4 => .ok (if f.cMore then .crcByte else .crcFinal)
  | 5 => .ok .reportUpdated
  | _ => .error .reservedPhase

theorem decodeSel_word_all : ∀ (p : Fin 8) (r x n m : Bool),
    (decodeSel (Sel.word { phase := BitVec.ofFin p, cRun := r, cRx := x, cNonempty := n, cMore := m })).toOption =
    (opOfFields { phase := BitVec.ofFin p, cRun := r, cRx := x, cNonempty := n, cMore := m }).toOption := by
  decide

theorem decodeSel_error {w : SelWord} {e : DecodeError} (h : decodeSel w = .error e) : e = .reservedPhase := by
  unfold decodeSel at h
  split at h
  · exact absurd h (by simp)
  · simpa using h.symm

theorem decodeSel_word (f : Sel) : decodeSel f.word = opOfFields f := by
  obtain ⟨⟨p⟩, r, x, n, m⟩ := f
  have h := decodeSel_word_all p r x n m
  cases h1 : decodeSel (Sel.word { phase := BitVec.ofFin p, cRun := r, cRx := x, cNonempty := n, cMore := m }) with
  | ok i =>
    rw [h1] at h
    cases h2 : opOfFields { phase := BitVec.ofFin p, cRun := r, cRx := x, cNonempty := n, cMore := m } with
    | ok j =>
      rw [h2] at h
      simpa [Except.toOption] using h
    | error e =>
      rw [h2] at h
      simp [Except.toOption] at h
  | error e =>
    rw [h1] at h
    have he := decodeSel_error h1
    cases h2 : opOfFields { phase := BitVec.ofFin p, cRun := r, cRx := x, cNonempty := n, cMore := m } with
    | ok j =>
      rw [h2] at h
      simp [Except.toOption] at h
    | error e' =>
      have : e' = .reservedPhase := by
        cases e' with
        | reservedPhase => rfl
        | _ => unfold opOfFields at h2; split at h2 <;> simp_all
      rw [he, this]

theorem opOfFields_reserved {f : Sel} (h : 5 < f.phase.toNat) : opOfFields f = .error .reservedPhase := by
  have := f.phase.isLt
  unfold opOfFields
  rcases (by omega : f.phase.toNat = 6 ∨ f.phase.toNat = 7) with h | h <;> simp [h]

/-- All that `selected` can answer: nothing in a reserved phase, else the operation waited in, else that of the phase and
the condition signals. -/
theorem selected_eq (s : State) :
    selected s = if 5 < s.phase.toNat then .error .reservedPhase else
      match s.env.pending with
      | some i => .ok i
      | none => opOfFields (selFields s) := by
  unfold selected selWord
  cases s.env.pending <;> simp [decodeSel_word]

theorem selected_reserved {s : State} (h : 6 ≤ s.phase.toNat) : selected s = .error .reservedPhase :=
  if_pos h

theorem selected_pending {s : State} {i : Instr} (hp : s.env.pending = some i) (h : s.phase.toNat ≤ 5) :
    selected s = .ok i := by
  rw [selected_eq, if_neg (by omega), hp]

/-- With nothing outstanding the operation is that of the phase and the condition signals. -/
theorem selected_free {s : State} (hp : s.env.pending = none) : selected s = opOfFields (selFields s) := by
  rw [selected_eq, hp]
  by_cases h : 5 < s.phase.toNat
  · rw [if_pos h]
    exact (opOfFields_reserved (f := selFields s) h).symm
  · rw [if_neg h]

/-- With nothing outstanding the operation is what the decoder reads from the selection word. -/
theorem selected_eq_decodeSel {s : State} (hp : s.env.pending = none) : selected s = decodeSel (selWord s) :=
  (selected_free hp).trans (decodeSel_word _).symm

/-! ### The condition signals as propositions -/

theorem cRun_eq_true (s : State) :
    cRun s = true ↔ s.idle.toNat < Config.idleThreshold ∧ s.len.toNat < Config.maxDataLen := by
  simp only [cRun, Bool.and_eq_true, decide_eq_true_eq]

theorem cRun_eq_false (s : State) :
    cRun s = false ↔ ¬ (s.idle.toNat < Config.idleThreshold ∧ s.len.toNat < Config.maxDataLen) := by
  rw [← cRun_eq_true, Bool.not_eq_true]

/-- A poll that could answer: the block is between operations, in `COLLECT`, and the guard holds. -/
theorem pollMade_eq_true (s : State) :
    pollMade s = true ↔ s.env.pending = none ∧ s.phase = Phase.collect ∧ cRun s = true := by
  simp only [pollMade, Bool.and_eq_true, Option.isNone_iff_eq_none, beq_iff_eq]

theorem cNonempty_eq_true (s : State) : cNonempty s = true ↔ 0 < s.len.toNat := decide_eq_true_iff

theorem cMore_eq_true (s : State) : cMore s = true ↔ s.idx.toNat < s.len.toNat := decide_eq_true_iff

theorem phase_cases (p : PhaseBits) (h : p.toNat ≤ 5) :
    p = Phase.boot ∨ p = Phase.idle ∨ p = Phase.collect ∨ p = Phase.done ∨ p = Phase.crc ∨ p = Phase.report := by
  have : ∀ q : Fin 8, q.val ≤ 5 → (BitVec.ofFin q = Phase.boot ∨ BitVec.ofFin q = Phase.idle ∨
      BitVec.ofFin q = Phase.collect ∨ BitVec.ofFin q = Phase.done ∨ BitVec.ofFin q = Phase.crc ∨
      BitVec.ofFin q = Phase.report) := by decide
  exact this p.toFin h

section
variable {s : State} (hp : s.env.pending = none)
include hp

theorem selected_boot (h : s.phase = Phase.boot) : selected s = .ok .banner := by
  simp [selected_free hp, opOfFields, selFields, h]

theorem selected_idle (h : s.phase = Phase.idle) : selected s = .ok .cycleStart := by
  simp [selected_free hp, opOfFields, selFields, h]

theorem selected_collect (h : s.phase = Phase.collect) :
    selected s = .ok (if cRun s then (if s.env.rxQueue.isEmpty then .idleTick else .rxByte) else .collectEnd) := by
  cases h1 : cRun s <;> cases h2 : s.env.rxQueue.isEmpty <;>
    simp [selected_free hp, opOfFields, selFields, h, cRx, pollMade, hp, h1, h2]

theorem selected_done (h : s.phase = Phase.done) :
    selected s = .ok (if cNonempty s then .crcInit else .reportNodata) := by
  simp [selected_free hp, opOfFields, selFields, h]

theorem selected_crc (h : s.phase = Phase.crc) : selected s = .ok (if cMore s then .crcByte else .crcFinal) := by
  simp [selected_free hp, opOfFields, selFields, h]

theorem selected_report (h : s.phase = Phase.report) : selected s = .ok .reportUpdated := by
  simp [selected_free hp, opOfFields, selFields, h]

end

end Sys2Proof.Machine
end

