-- ==== Sys2Proof/Laws/Step.lean ====
section
/-! SUPPORT. What a step and what each meaning can do, said once. -/

namespace Sys2Proof.Machine

/-- The block's own step is `exec` of the operation selected. -/
theorem blockStep_of_selected {s : State} {i : Instr} (h : selected s = .ok i) : blockStep s = exec i s := by
  simp [blockStep, h]

theorem stuckIn_of_selected {s : State} {i : Instr} (h : selected s = .ok i) : stuckIn s = waiting i s := by
  simp [stuckIn, h]

/-- In a step without reset in which the block is not stuck, the step is the block's own. -/
theorem step_of_blockStep {s : State} (hr : (nextMove s).rst = none) (h : blockStep (envMoved s) ≠ .refused .stuck) :
    step s = blockStep (envMoved s) := by
  simp only [step, stepAfterMove, hr]

/-- In a step without reset in which the block is stuck, the environment's move stands alone. -/
theorem step_of_stuck {s : State} (hr : (nextMove s).rst = none) (h : blockStep (envMoved s) = .refused .stuck) :
    step s = .next (stuckIn (envMoved s)) := by
  unfold step stepAfterMove
  rw [hr, h]

/-- A step that answers a next state is the reset event, or the selected operation performed after the move, or a move of
the environment while the block is stuck in the selected operation. -/
theorem step_next_cases {s t : State} (h : step s = .next t) :
    (∃ p, (nextMove s).rst = some p ∧ t = resetEvent (envMoved s) p) ∨
    ((nextMove s).rst = none ∧ ∃ i, selected (envMoved s) = .ok i ∧
      (exec i (envMoved s) = .next t ∨ (exec i (envMoved s) = .refused .stuck ∧ t = waiting i (envMoved s)))) := by
  cases hr : (nextMove s).rst with
  | some p =>
    unfold step stepAfterMove at h
    rw [hr] at h
    exact .inl ⟨p, rfl, (Host.Outcome.next.inj h).symm⟩
  | none =>
    refine .inr ⟨rfl, ?_⟩
    cases hs : selected (envMoved s) with
    | ok i =>
      refine ⟨i, rfl, ?_⟩
      by_cases hb : blockStep (envMoved s) = .refused .stuck
      · rw [step_of_stuck hr hb, stuckIn_of_selected hs] at h
        exact .inr ⟨(blockStep_of_selected hs).symm.trans hb, (Host.Outcome.next.inj h).symm⟩
      · rw [step_of_blockStep hr hb, blockStep_of_selected hs] at h
        exact .inl h
    | error e =>
      have hb : blockStep (envMoved s) = .refused .reservedPhase := by simp [blockStep, hs]
      rw [step_of_blockStep hr (by simp [hb]), hb] at h
      cases h

/-- What the coming step performs: an operation exactly where no reset comes and the selected one answers a next state. -/
theorem performed?_eq_some {s : State} {i : Instr} :
    performed? s = some i ↔
      (nextMove s).rst = none ∧ selected (envMoved s) = .ok i ∧ ∃ t, exec i (envMoved s) = .next t := by
  unfold performed? performedAfterMove
  cases (nextMove s).rst <;> cases hs : selected (envMoved s) <;> simp [blockStep, hs]
  rename_i j
  cases hj : exec j (envMoved s) <;> simp
  · rintro rfl
    exact ⟨_, hj⟩
  · rintro rfl t ht
    rw [hj] at ht
    cases ht
  · rintro rfl t ht
    rw [hj] at ht
    cases ht

/-! ### Inversions of the meanings: if the operation answers a next state, it is one of these -/

theorem execBanner_next {s t : State} (h : execBanner s = .next t) :
    s.env.grant = true ∧
      t = (s.setPhase Phase.idle).setEnv ((s.env.setTx (s.env.tx ++ bannerMsg)).setPending none) :=
  awaitEnv_next h

theorem execCycleStart_next {s t : State} (h : execCycleStart s = .next t) :
    s.env.grant = true ∧
      t = (((s.setLen 0#13).setIdle 0#9).setPhase Phase.collect).setEnv
        ((s.env.setTx (s.env.tx ++ readyMsg)).setPending none) :=
  awaitEnv_next h

theorem execRxByte_next {s t : State} (h : execRxByte s = .next t) :
    ∃ b rest, s.env.rxQueue = b :: rest ∧ s.len.toNat < Config.maxDataLen ∧
      t = ((((s.setFrame (s.frame.write s.len.toNat b)).setLen (s.len + 1#13)).setIdle 0#9).setPhase
        Phase.collect).setEnv (s.env.setRxQueue rest) := by
  unfold execRxByte at h
  cases hq : s.env.rxQueue with
  | nil => simp [rxPoll, hq] at h
  | cons b rest =>
    simp only [rxPoll, hq] at h
    by_cases hl : s.len.toNat < Config.maxDataLen
    · simp only [memWrite, State.setEnv_len, hl, if_true] at h
      exact ⟨b, rest, rfl, hl, (Host.Outcome.next.inj h).symm⟩
    · simp only [memWrite, State.setEnv_len, hl, if_false] at h
      simp at h

theorem execIdleTick_next {s t : State} (h : execIdleTick s = .next t) :
    (s.env.pending = some .idleTick ∨ s.env.rxQueue = []) ∧ s.env.grant = true ∧
      t = ((s.setIdle (s.idle + 1#9)).setPhase Phase.collect).setEnv
        ((s.env.setTime (s.env.time + 1)).setPending none) := by
  unfold execIdleTick at h
  split at h
  · rename_i hc
    exact ⟨hc, awaitEnv_next h⟩
  · simp at h

theorem execCollectEnd_next {s t : State} (h : execCollectEnd s = .next t) : t = s.setPhase Phase.done := by
  simpa [execCollectEnd] using h.symm

theorem execCrcInit_next {s t : State} (h : execCrcInit s = .next t) :
    t = ((s.setCrc Config.initCrc).setIdx 0#13).setPhase Phase.crc := by
  simpa [execCrcInit] using h.symm

theorem execCrcByte_next {s t : State} (h : execCrcByte s = .next t) :
    s.idx.toNat < Config.maxDataLen ∧
      t = ((s.setCrc (bytestep s.crc (cell s s.idx.toNat))).setIdx (s.idx + 1#13)).setPhase Phase.crc := by
  unfold execCrcByte memRead at h
  by_cases hl : s.idx.toNat < Config.maxDataLen
  · simp only [hl, if_true] at h
    exact ⟨hl, (Host.Outcome.next.inj h).symm⟩
  · simp only [hl, if_false] at h
    simp at h

theorem execCrcFinal_next {s t : State} (h : execCrcFinal s = .next t) :
    t = (s.setLastCrc (crcResult s.crc)).setPhase Phase.report := by
  simpa [execCrcFinal] using h.symm

theorem execReportNodata_next {s t : State} (h : execReportNodata s = .next t) :
    s.env.grant = true ∧
      t = (s.setPhase Phase.idle).setEnv (((s.env.setRes (s.env.res ++ [{ isNew := false, crc := s.lastCrc }])).setTx
        (s.env.tx ++ nodataMsg s.lastCrc)).setPending none) :=
  awaitEnv_next h

theorem execReportUpdated_next {s t : State} (h : execReportUpdated s = .next t) :
    s.env.grant = true ∧
      t = (s.setPhase Phase.idle).setEnv (((s.env.setRes (s.env.res ++ [{ isNew := true, crc := s.lastCrc }])).setTx
        (s.env.tx ++ updatedMsg s.lastCrc)).setPending none) :=
  awaitEnv_next h

end Sys2Proof.Machine
end

