-- ==== Sys2Proof/Tests/Slice0.lean ====
section
/-! SUPPORT. Tests with expected values from 95_test_vectors.md, and for each statement with hypotheses a state that meets
them. -/

namespace Sys2Proof.Tests

open Sys2Proof Sys2Proof.Machine

/-! ### Helpers -/

/-- The next state of an outcome, if it has one. -/
def nextOf (o : Host.Outcome State Fault Refusal) : Option State :=
  match o with
  | .next t => some t
  | _ => none

/-- A state of the block right after reset but for its registers, its queue and the coming moves. -/
def scene (phase : PhaseBits) (len : Count) (idle : IdleCount) (idx : Count) (frame : Memory) (queue : List Byte)
    (script : List EnvMove) : State :=
  { State.reset with
    phase := phase, len := len, idle := idle, idx := idx, frame := frame
    env := { Env.atPowerUp with rxQueue := queue, script := script } }

/-- A move in which the environment withholds what the operation waits for. -/
def withheld : EnvMove := { EnvMove.quiet with grants := false }

/-- A move with a reset after `p` actions of the operation. -/
def resetAfter (p : Nat) : EnvMove := { EnvMove.quiet with rst := some p }

/-- `n` moves in which nothing happens. -/
def quiets (n : Nat) : List EnvMove := List.replicate n EnvMove.quiet

/-- A frame buffer whose first cells, from an address on, hold given bytes. -/
def cellsFrom (a : Nat) : List Byte → Memory
  | [] => []
  | b :: rest => (a, b) :: cellsFrom (a + 1) rest

theorem cellsFrom_wf (bytes : List Byte) :
    ∀ a, a + bytes.length ≤ Config.maxDataLen → Memory.wfFrom a (cellsFrom a bytes) = true := by
  induction bytes with
  | nil => intro a _; rfl
  | cons b rest ih =>
    intro a h
    simp only [List.length_cons] at h
    simp only [cellsFrom, Memory.wfFrom, ih (a + 1) (by omega), Bool.and_true, Bool.and_eq_true, decide_eq_true_eq]
    omega

theorem cellsFrom_read (bytes : List Byte) :
    ∀ a k, a ≤ k → k < a + bytes.length → (Memory.read? (cellsFrom a bytes) k).isSome = true := by
  induction bytes with
  | nil => intro a k h1 h2; simp at h2; omega
  | cons b rest ih =>
    intro a k h1 h2
    simp only [List.length_cons] at h2
    simp only [cellsFrom, Memory.read?]
    split
    · rfl
    · exact ih (a + 1) k (by omega) (by omega)

/-- The frame buffer with its first `n` cells written. -/
def filled (n : Nat) : Memory := cellsFrom 0 (List.replicate n 0x41#8)

theorem filled_wf (n : Nat) (h : n ≤ Config.maxDataLen) : (filled n).wf = true := cellsFrom_wf _ 0 (by simpa using h)

theorem filled_read (n k : Nat) (h : k < n) : ((filled n).read? k).isSome = true :=
  cellsFrom_read _ 0 k (Nat.zero_le _) (by simpa using h)

/-! ### Well-formedness: one ill-formed selection word for each check -/

theorem test_sel_reserved_phase_refused :
    Sel.phaseLegal { phase := 6#3, cRun := true, cRx := false, cNonempty := false, cMore := false } = false ∧
    Sel.wellFormed { phase := 6#3, cRun := true, cRx := false, cNonempty := false, cMore := false } = false := by decide

theorem test_sel_rx_without_poll_refused :
    Sel.rxSampled { phase := 2#3, cRun := false, cRx := true, cNonempty := false, cMore := false } = false ∧
    Sel.wellFormed { phase := 2#3, cRun := false, cRx := true, cNonempty := false, cMore := false } = false := by decide

theorem test_sel_more_of_empty_refused :
    Sel.moreNonempty { phase := 4#3, cRun := true, cRx := false, cNonempty := false, cMore := true } = false ∧
    Sel.wellFormed { phase := 4#3, cRun := true, cRx := false, cNonempty := false, cMore := true } = false := by decide

/-- Also for PlacedWordIsFormed. -/
theorem test_sel_wellFormed_accepts :
    Sel.wellFormed { phase := 2#3, cRun := true, cRx := true, cNonempty := true, cMore := true } = true := by decide

/-! ### Decoding: words written out from 30_encoding.md R90 and R92, and from the decode table of the vectors -/

theorem test_decode_banner :
    decodeSel 0b0000000#7 = .ok .banner ∧ decodeSel 0b0001000#7 = .ok .banner ∧ decodeSel 0b0001111#7 = .ok .banner := by
  decide
theorem test_decode_cycleStart :
    decodeSel 0b0010000#7 = .ok .cycleStart ∧ decodeSel 0b0011000#7 = .ok .cycleStart := by decide
theorem test_decode_rxByte : decodeSel 0b0101100#7 = .ok .rxByte ∧ decodeSel 0b0101111#7 = .ok .rxByte := by decide
theorem test_decode_idleTick : decodeSel 0b0101000#7 = .ok .idleTick ∧ decodeSel 0b0101011#7 = .ok .idleTick := by decide
theorem test_decode_collectEnd :
    decodeSel 0b0100000#7 = .ok .collectEnd ∧ decodeSel 0b0100111#7 = .ok .collectEnd := by decide
theorem test_decode_crcInit : decodeSel 0b0110010#7 = .ok .crcInit ∧ decodeSel 0b0110110#7 = .ok .crcInit := by decide
theorem test_decode_reportNodata :
    decodeSel 0b0110000#7 = .ok .reportNodata ∧ decodeSel 0b0110001#7 = .ok .reportNodata := by decide
theorem test_decode_crcByte : decodeSel 0b1000001#7 = .ok .crcByte ∧ decodeSel 0b1001011#7 = .ok .crcByte := by decide
theorem test_decode_crcFinal : decodeSel 0b1000000#7 = .ok .crcFinal ∧ decodeSel 0b1001010#7 = .ok .crcFinal := by decide
theorem test_decode_reportUpdated :
    decodeSel 0b1010000#7 = .ok .reportUpdated ∧ decodeSel 0b1011111#7 = .ok .reportUpdated := by decide
theorem test_decode_reserved_refused :
    decodeSel 0b1100000#7 = .error .reservedPhase ∧ decodeSel 0b1111111#7 = .error .reservedPhase := by decide
theorem test_decode_bytes_refused :
    decodeBytes [] = .error .noWord ∧ decodeBytes [0b10000000#8] = .error .widerThanSeven := by decide

/-! ### The CRC32Engine: the tables of 95_test_vectors.md section 3 -/

theorem test_reflect8 :
    reflect8 0x01#8 = 0x80#8 ∧ reflect8 0x31#8 = 0x8C#8 ∧ reflect8 0x0F#8 = 0xF0#8 ∧ reflect8 0x12#8 = 0x48#8 := by decide
theorem test_reflect32 :
    reflect32 0x12345678#32 = 0x1E6A2C48#32 ∧ reflect32 0xCBF43926#32 = 0x649C2FD3#32 ∧
    reflect32 0x0000FFFF#32 = 0xFFFF0000#32 := by decide +kernel
theorem test_bitstep :
    bitstep 0x40000000#32 = 0x80000000#32 ∧ bitstep 0x80000000#32 = 0x04C11DB7#32 ∧
    bitstep 0xFFFFFFFF#32 = 0xFB3EE249#32 ∧ bitstep 0xFBFFFFFE#32 = 0xF33EE24B#32 := by decide
theorem test_bytestep : bytestep 0xFFFFFFFF#32 0x41#8 = 0x2E866434#32 := by decide +kernel
theorem test_compute_empty_zero_ff :
    compute [] = 0x00000000#32 ∧ compute [0x00] = 0xD202EF8D#32 ∧ compute [0xFF] = 0xFF000000#32 := by decide +kernel
theorem test_compute_top_and_low_bit :
    compute [0x80] = 0x3FBA6CAD#32 ∧ compute [0x01] = 0xA505DF1B#32 ∧ compute [0x61, 0x62, 0x63] = 0x352441C2#32 := by
  decide +kernel
theorem test_compute_own_crc_appended :
    compute [0x41, 0x8B, 0x9E, 0xD9, 0xD3] = 0x2144DF1C#32 ∧ compute [0x00, 0x00, 0x00, 0x00] = 0x2144DF1C#32 := by
  decide +kernel
theorem test_hex8 :
    hex8 0x0000000A#32 = [0x30, 0x30, 0x30, 0x30, 0x30, 0x30, 0x30, 0x41] ∧
    hex8 0xFEDCBA98#32 = [0x46, 0x45, 0x44, 0x43, 0x42, 0x41, 0x39, 0x38] := by decide
theorem test_updated_message_length_and_digits :
    (updatedMsg 0xD3D99E8B#32).length = 36 ∧
    ((updatedMsg 0xD3D99E8B#32).drop 26).take 8 = [0x44, 0x33, 0x44, 0x39, 0x39, 0x45, 0x38, 0x42] := by decide

/-! ### One operation at a time: the rows X, Q and V of 95_test_vectors.md section 3 -/

/-- X1. -/
theorem test_crcInit :
    (nextOf (step (scene Phase.done 1#13 500#9 0#13 [(0, 0x41#8)] [] (quiets 1)))).map
      (fun t => (t.phase, t.crc, t.idx, t.len)) = some (Phase.crc, 0xFFFFFFFF#32, 0#13, 1#13) := by decide
/-- X4: the stale index is overwritten. -/
theorem test_crcInit_stale_index :
    selWord (scene Phase.done 904#13 500#9 4096#13 [] [] []) = 0x32#7 ∧
    (nextOf (step (scene Phase.done 904#13 500#9 4096#13 [] [] (quiets 1)))).map State.idx = some 0#13 := by decide
/-- X2. -/
theorem test_crcByte :
    (nextOf (step ((scene Phase.crc 1#13 500#9 0#13 [(0, 0x41#8)] [] (quiets 1)).setCrc 0xFFFFFFFF#32))).map
      (fun t => (t.phase, t.crc, t.idx)) = some (Phase.crc, 0x2E866434#32, 1#13) := by decide +kernel
/-- X5: the last cell of the buffer. -/
theorem test_crcByte_last_cell :
    selWord (scene Phase.crc 4096#13 0#9 4095#13 [(4095, 0x41#8)] [] []) = 0x43#7 ∧
    (nextOf (step ((scene Phase.crc 4096#13 0#9 4095#13 [(4095, 0x41#8)] [] (quiets 1)).setCrc 0xFFFFFFFF#32))).map
      (fun t => (t.crc, t.idx, selWord t)) = some (0x2E866434#32, 4096#13, 0x42#7) := by decide +kernel
/-- X3. -/
theorem test_crcFinal :
    (nextOf (step ((scene Phase.crc 1#13 500#9 1#13 [(0, 0x41#8)] [] (quiets 1)).setCrc 0x2E866434#32))).map
      (fun t => (t.phase, t.crc, t.lastCrc)) = some (Phase.report, 0x2E866434#32, 0xD3D99E8B#32) := by decide +kernel
/-- Q1. -/
theorem test_cycleStart :
    selWord (scene Phase.idle 0#13 0#9 0#13 [] [] []) = 0x18#7 ∧
    (nextOf (step (scene Phase.idle 0#13 0#9 0#13 [] [] (quiets 1)))).map (fun t => (t.phase, t.env.tx.length)) =
      some (Phase.collect, 26) := by decide
/-- Q2: after a full buffer. -/
theorem test_cycleStart_after_full_buffer :
    selWord (scene Phase.idle 4096#13 0#9 4096#13 [] [] []) = 0x12#7 ∧
    (nextOf (step (scene Phase.idle 4096#13 0#9 4096#13 [] [] (quiets 1)))).map (fun t => (t.len, t.idle, t.idx)) =
      some (0#13, 0#9, 4096#13) := by decide
/-- Q4: a byte at the last moment. -/
theorem test_rxByte_last_moment :
    selWord (scene Phase.collect 1#13 499#9 0#13 [(0, 0x41#8)] [0x42] []) = 0x2F#7 ∧
    (nextOf (step (scene Phase.collect 1#13 499#9 0#13 [(0, 0x41#8)] [0x42] (quiets 1)))).map
      (fun t => (t.len, t.idle, t.frame.read? 1, t.env.rxQueue)) = some (2#13, 0#9, some 0x42#8, []) := by decide
/-- Q5: the 4096th byte; the next one stays queued. -/
theorem test_rxByte_fills_buffer :
    (nextOf (step (scene Phase.collect 4095#13 3#9 0#13 [] [0x7F, 0x80] (quiets 1)))).map
      (fun t => (t.len, t.frame.read? 4095, t.env.rxQueue, selWord t)) =
      some (4096#13, some 0x7F#8, [0x80#8], 0x23#7) := by decide
/-- Q6. -/
theorem test_idleTick :
    selWord (scene Phase.collect 0#13 0#9 0#13 [] [] []) = 0x28#7 ∧
    (nextOf (step (scene Phase.collect 0#13 0#9 0#13 [] [] (quiets 1)))).map (fun t => (t.len, t.idle, t.env.time)) =
      some (0#13, 1#9, 1) := by decide
/-- Q7: the 500th. -/
theorem test_idleTick_last :
    selWord (scene Phase.collect 1#13 499#9 0#13 [] [] []) = 0x2B#7 ∧
    (nextOf (step (scene Phase.collect 1#13 499#9 0#13 [] [] (quiets 1)))).map (fun t => (t.idle, selWord t)) =
      some (500#9, 0x23#7) := by decide
/-- Q8: no poll at the threshold. -/
theorem test_collectEnd_no_poll :
    selWord (scene Phase.collect 1#13 500#9 0#13 [] [0x42] []) = 0x23#7 ∧
    (nextOf (step (scene Phase.collect 1#13 500#9 0#13 [] [0x42] (quiets 1)))).map (fun t => (t.phase, t.len, t.env.rxQueue)) =
      some (Phase.done, 1#13, [0x42#8]) := by decide
/-- Q10: buffer full. -/
theorem test_collectEnd_full :
    selWord (scene Phase.collect 4096#13 0#9 0#13 [] [] []) = 0x23#7 ∧
    (nextOf (step (scene Phase.collect 4096#13 0#9 0#13 [] [] (quiets 1)))).map (fun t => (t.phase, t.len)) =
      some (Phase.done, 4096#13) := by decide
/-- V1. -/
theorem test_banner :
    selWord State.reset = 0x08#7 ∧
    (nextOf (step (resetWithScript (quiets 1)))).map (fun t => (t.phase, t.env.tx.length, t.env.res)) =
      some (Phase.idle, 35, []) := by decide
/-- A sink that does not accept: the block takes no step, nothing of BANNER is seen, and the block stays inside of it
(60_exceptions.md R233, R235). -/
theorem test_banner_stuck :
    (match blockStep (envMoved (resetWithScript [withheld])) with
      | .refused r => some r
      | _ => none) = some Refusal.stuck ∧
    performed? (resetWithScript [withheld]) = none ∧
    (nextOf (step (resetWithScript [withheld]))).map (fun t => (t.phase, t.env.tx, txValid t)) =
      some (Phase.boot, [], true) := by decide
/-- An operation that waited is listed once, when it is performed. -/
theorem test_wait_listed_once :
    opsOfRun 3 (resetWithScript [withheld, withheld, EnvMove.quiet]) = [.banner] := by decide +kernel
/-- A byte that arrives in the sleep of an IDLE_TICK is not polled in it: the trace line keeps the word 0x28. -/
theorem test_tick_word_after_wait :
    (let s := scene Phase.collect 0#13 0#9 0#13 [] [0x41] (quiets 1)
     traceLine? (s.setEnv (s.env.setPending (some .idleTick)))) = some { op := .idleTick, sel := 0x28#7 } := by
  decide +kernel
/-- V4. -/
theorem test_reportNodata :
    (nextOf (step ((scene Phase.done 0#13 500#9 0#13 [] [] (quiets 1)).setLastCrc 0xCBF43926#32))).map
      (fun t => (t.phase, t.env.res, t.env.tx.length, (t.env.tx.drop 52).take 8)) =
      some (Phase.idle, [{ isNew := false, crc := 0xCBF43926#32 }], 62,
        [0x43, 0x42, 0x46, 0x34, 0x33, 0x39, 0x32, 0x36]) := by decide
/-- V2. -/
theorem test_reportUpdated :
    (nextOf (step ((scene Phase.report 1#13 500#9 1#13 [] [] (quiets 1)).setLastCrc 0xD3D99E8B#32))).map
      (fun t => (t.phase, t.env.res, t.env.tx.length)) =
      some (Phase.idle, [{ isNew := true, crc := 0xD3D99E8B#32 }], 36) := by decide

/-! ### A placed word is run by the very next step, from reset -/

theorem test_placed_words_run :
    ∀ r ∈ opTable, nextOf (step (State.reset.withFetchWord 7 r.pattern.toNat)) =
        nextOf (exec r.op (envMoved (State.reset.withFetchWord 7 r.pattern.toNat))) ∧
      (nextOf (step (State.reset.withFetchWord 7 r.pattern.toNat))).isSome = true := by decide +kernel

theorem test_placed_reserved_word_refused :
    nextOf (step (State.reset.withFetchWord 7 0x60)) = none ∧ decodeTableWord 7 0x60 = none := by decide

/-! ### Witnesses: states that meet the hypotheses of the statements -/

/-- The invariant of a scene whose frame is written. -/
theorem inv_scene {p : PhaseBits} {len : Count} {idle : IdleCount} {idx : Count} {q : List Byte} {sc : List EnvMove}
    {n : Nat} (hp : p.toNat ≤ 5) (hl : len.toNat = n) (hn : n ≤ 4096) (hi : idle.toNat ≤ 500) (hx : idx.toNat ≤ 4096)
    (hc : p = Phase.crc ∨ p = Phase.report → idx.toNat ≤ n ∧ 0 < n) (hf : n = 4096 → idle.toNat = 0)
    (hy : frameYielded p = true → idle.toNat = 500 ∨ n = 4096) : Inv (scene p len idle idx (filled n) q sc) := by
  subst hl
  exact
    { phaseLegal := hp, lenRange := hn, idleRange := hi, idxRange := hx, idxBelowLen := fun h => (hc h).1
      frameWf := filled_wf _ hn, frameWritten := fun _ a ha => filled_read _ a ha, fullThenFresh := hf, endedHow := hy
      passNonempty := fun h => (hc h).2, pendingSelected := fun _ h => nomatch h }

/-- The move ahead of a state whose script is quiet. -/
theorem moveAt_of_quiets {s : State} {k m : Nat} (h : s.env.script = quiets m) (hk : k < m) :
    moveAt s k = EnvMove.quiet := by
  simp [moveAt, h, quiets, hk]

/-- A fair run of quiet moves is ahead where the script says so. -/
theorem fair_of_quiets {s : State} {n m : Nat} (h : s.env.script = quiets m) (hn : n ≤ m) : FairFor n s := by
  intro k hk
  rw [moveAt_of_quiets h (Nat.lt_of_lt_of_le hk hn)]
  rfl

theorem noReset_of_quiets {s : State} {n m : Nat} (h : s.env.script = quiets m) (hn : n ≤ m) : NoResetFor n s := by
  intro k hk
  have hm := fair_of_quiets h hn k hk
  simp only [EnvMove.fair, Bool.and_eq_true, Option.isNone_iff_eq_none] at hm
  exact hm.2

/-- For each operation, a reachable state in which it is the one selected. -/
def sceneOf (i : Instr) : State :=
  match i with
  | .banner => scene Phase.boot 0#13 0#9 0#13 (filled 0) [] (quiets 2)
  | .cycleStart => told (scene Phase.idle 0#13 0#9 0#13 (filled 0) [] (quiets 2))
  | .rxByte => told (scene Phase.collect 1#13 499#9 0#13 (filled 1) [0x42] (quiets 2))
  | .idleTick => told (scene Phase.collect 1#13 499#9 0#13 (filled 1) [] (quiets 2))
  | .collectEnd => told (scene Phase.collect 1#13 500#9 0#13 (filled 1) [0x42] (quiets 2))
  | .crcInit => told (scene Phase.done 1#13 500#9 0#13 (filled 1) [] (quiets 2))
  | .reportNodata => told (scene Phase.done 0#13 500#9 0#13 (filled 0) [] (quiets 2))
  | .crcByte => told ((scene Phase.crc 1#13 500#9 0#13 (filled 1) [] (quiets 2)).setCrc 0xFFFFFFFF#32)
  | .crcFinal => told ((scene Phase.crc 1#13 500#9 1#13 (filled 1) [] (quiets 2)).setCrc 0x2E866434#32)
  | .reportUpdated => told ((scene Phase.report 1#13 500#9 1#13 (filled 1) [] (quiets 2)).setLastCrc 0xD3D99E8B#32)
where
  /-- With the text that a first cycle has sent by that phase. -/
  told (s : State) : State := s.setEnv (s.env.setTx (expectedTx s.phase []))

theorem scenes_inv (i : Instr) : Inv (sceneOf i) := by
  have keep : ∀ {s t : State}, Inv s → t.len = s.len → t.idle = s.idle → t.idx = s.idx → t.phase = s.phase →
      t.frame = s.frame → t.env.pending = none → Inv t := by
    intro s t h h1 h2 h3 h4 h5 h6
    obtain ⟨a, b, c, d, e, f, g, x, y, z, _⟩ := h
    rw [← h1] at b e g x y z
    rw [← h2] at c x y
    rw [← h3] at d e
    rw [← h4] at a e g y z
    rw [← h5] at f g
    exact ⟨a, b, c, d, e, f, g, x, y, z, fun j hj => by rw [h6] at hj; cases hj⟩
  cases i
  case banner => exact inv_scene (by decide) rfl (by decide) (by decide) (by decide) (by decide) (by decide) (by decide)
  case cycleStart =>
    exact keep (inv_scene (p := Phase.idle) (q := []) (sc := quiets 2) (idle := 0#9) (idx := 0#13) (by decide) rfl
      (by decide) (by decide) (by decide) (by decide) (by decide) (by decide)) rfl rfl rfl rfl rfl rfl
  case rxByte =>
    exact keep (inv_scene (p := Phase.collect) (len := 1#13) (q := []) (sc := quiets 2) (idle := 499#9) (idx := 0#13)
      (by decide) rfl (by decide) (by decide) (by decide) (by decide) (by decide) (by decide)) rfl rfl rfl rfl rfl rfl
  case idleTick =>
    exact keep (inv_scene (p := Phase.collect) (len := 1#13) (q := []) (sc := quiets 2) (idle := 499#9) (idx := 0#13)
      (by decide) rfl (by decide) (by decide) (by decide) (by decide) (by decide) (by decide)) rfl rfl rfl rfl rfl rfl
  case collectEnd =>
    exact keep (inv_scene (p := Phase.collect) (len := 1#13) (q := []) (sc := quiets 2) (idle := 500#9) (idx := 0#13)
      (by decide) rfl (by decide) (by decide) (by decide) (by decide) (by decide) (by decide)) rfl rfl rfl rfl rfl rfl
  case crcInit =>
    exact keep (inv_scene (p := Phase.done) (len := 1#13) (q := []) (sc := quiets 2) (idle := 500#9) (idx := 0#13)
      (by decide) rfl (by decide) (by decide) (by decide) (by decide) (by decide) (by decide)) rfl rfl rfl rfl rfl rfl
  case reportNodata =>
    exact keep (inv_scene (p := Phase.done) (len := 0#13) (q := []) (sc := quiets 2) (idle := 500#9) (idx := 0#13)
      (by decide) rfl (by decide) (by decide) (by decide) (by decide) (by decide) (by decide)) rfl rfl rfl rfl rfl rfl
  case crcByte =>
    exact keep (inv_scene (p := Phase.crc) (len := 1#13) (q := []) (sc := quiets 2) (idle := 500#9) (idx := 0#13)
      (by decide) rfl (by decide) (by decide) (by decide) (by decide) (by decide) (by decide)) rfl rfl rfl rfl rfl rfl
  case crcFinal =>
    exact keep (inv_scene (p := Phase.crc) (len := 1#13) (q := []) (sc := quiets 2) (idle := 500#9) (idx := 1#13)
      (by decide) rfl (by decide) (by decide) (by decide) (by decide) (by decide) (by decide)) rfl rfl rfl rfl rfl rfl
  case reportUpdated =>
    exact keep (inv_scene (p := Phase.report) (len := 1#13) (q := []) (sc := quiets 2) (idle := 500#9) (idx := 1#13)
      (by decide) rfl (by decide) (by decide) (by decide) (by decide) (by decide) (by decide)) rfl rfl rfl rfl rfl rfl

/-- For the statements on steps under the invariant (CollectorTransitions, PhaseGraph, OperationFrames, NoFaultWhereInv,
StreamsOnlyGrow, StepKeepsInv, NoPollOutsideCollect): each operation has a state in which a step without reset performs
it, ends its wait, and answers a next state. -/
theorem witness_scene_steps :
    ∀ i, i ∈ opTable.map OpRow.op → (nextMove (sceneOf i)).rst = none ∧ selected (envMoved (sceneOf i)) = .ok i ∧
      (sceneOf i).env.pending = none ∧
      ((nextOf (step (sceneOf i))).map (fun t => t.env.pending)) = some none ∧
      (nextOf (step (sceneOf i))) = nextOf (exec i (envMoved (sceneOf i))) := by decide +kernel

/-- For StepKeepsPassInv. -/
theorem witness_scene_passInv (i : Instr) : PassInv (sceneOf i) := by
  cases i <;> exact ⟨by decide +kernel, by decide +kernel⟩

/-- For StepKeepsOutputShape. -/
theorem witness_scene_outputInv (i : Instr) : OutputInv (sceneOf i) := by
  cases i <;> exact ⟨by decide +kernel, by decide +kernel⟩

/-- For StepKeepsHeldCrc. -/
theorem witness_scene_heldSince (i : Instr) : HeldSince 0 (sceneOf i) := by
  cases i <;> exact ⟨Nat.zero_le _, by decide +kernel⟩

/-- For StepKeepsHeldCrc's clause on reset: an updated report published before it. -/
theorem witness_held_after_reset :
    let s := (scene Phase.boot 0#13 0#9 0#13 [] [] [resetAfter 0]).setEnv
      ((scene Phase.boot 0#13 0#9 0#13 [] [] [resetAfter 0]).env.setRes [{ isNew := true, crc := 5#32 }])
    (nextMove s).rst = some 0 ∧
      (nextOf (step s)).map (fun t => (t.env.res.length, t.lastCrc)) = some (1, 0#32) := by decide

/-- For ReflectionsReverseBits, ByteEntersRegister, BitstepBits and ResultLeavesRegister: the first and the last bit of
each range. -/
theorem witness_bit_indices : 0 < 8 ∧ 7 < 8 ∧ 0 < 24 ∧ 23 < 24 ∧ 0 < 32 ∧ 31 < 32 := by decide

/-- For the clauses of ReportUpdatedEffect and CrcFinalEffect under an invariant: nothing outstanding and the operation
selected in the scene itself. -/
theorem witness_scene_selects :
    ∀ i, i ∈ opTable.map OpRow.op → (sceneOf i).env.pending = none ∧ selected (sceneOf i) = .ok i := by decide +kernel

/-- For TableTotalAndUnambiguous: phases 0, 5, 6 and 7. -/
theorem witness_table_phases :
    ((0x00#7 : SelWord).extractLsb' 4 3).toNat ≤ 5 ∧ ((0x5F#7 : SelWord).extractLsb' 4 3).toNat ≤ 5 ∧
    6 ≤ ((0x60#7 : SelWord).extractLsb' 4 3).toNat ∧ 6 ≤ ((0x7F#7 : SelWord).extractLsb' 4 3).toNat := by decide

/-- For PlacedWordRuns. -/
theorem witness_placed_word : 0x2C < 128 ∧ decodeTableWord 8 0x2C = some .rxByte ∧ 0x5F < 128 ∧
    decodeTableWord 8 0x5F = some .reportUpdated := by decide

/-- For StepRunsSelectedOperation: nothing outstanding, and an operation waited in. -/
theorem witness_step_clauses :
    (nextMove (sceneOf .crcByte)).rst = none ∧ (sceneOf .crcByte).env.pending = none ∧
    decodeSel (selWord (envMoved (sceneOf .crcByte))) = .ok .crcByte ∧
    (nextMove (scene Phase.boot 0#13 0#9 0#13 [] [] (quiets 1))).rst = none ∧
    ((scene Phase.boot 0#13 0#9 0#13 [] [] (quiets 1)).setEnv
      ((scene Phase.boot 0#13 0#9 0#13 [] [] (quiets 1)).env.setPending (some .banner))).env.pending = some .banner ∧
    (scene Phase.boot 0#13 0#9 0#13 [] [] (quiets 1)).phase.toNat ≤ 5 := by
  decide +kernel

/-- For ReservedPhaseRefused: phases 6 and 7, with a request outstanding and without; and a run from reset. -/
theorem witness_reserved_phase :
    (∀ p : PhaseBits, p = 6#3 ∨ p = 7#3 → ∀ w : Option Instr, w = none ∨ w = some .banner ∨ w = some .crcByte →
      let s := (scene p 0#13 0#9 0#13 [] [] (quiets 1)).setEnv
        ((scene p 0#13 0#9 0#13 [] [] (quiets 1)).env.setPending w)
      6 ≤ s.phase.toNat ∧ (nextMove s).rst = none ∧ nextOf (step s) = none) ∧
    (nextOf (run 2 (resetWithScript (quiets 2)))).isSome = true := by
  refine ⟨?_, by decide +kernel⟩
  rintro p (rfl | rfl) w (rfl | rfl | rfl) <;> decide

/-- For the clauses on selection in the ten effect statements and for CollectionGuard and DispatchOnEmptiness: states with
nothing outstanding at the boundary values of `idle`, `len` and `idx`, and what the rules select there. -/
theorem witness_selection_boundaries :
    selected (scene Phase.collect 4095#13 499#9 0#13 [] [0x41] []) = .ok .rxByte ∧
    selected (scene Phase.collect 4095#13 499#9 0#13 [] [] []) = .ok .idleTick ∧
    selected (scene Phase.collect 4095#13 500#9 0#13 [] [0x41] []) = .ok .collectEnd ∧
    selected (scene Phase.collect 4096#13 0#9 0#13 [] [0x41] []) = .ok .collectEnd ∧
    selected (scene Phase.done 0#13 500#9 0#13 [] [] []) = .ok .reportNodata ∧
    selected (scene Phase.done 1#13 500#9 0#13 [] [] []) = .ok .crcInit ∧
    selected (scene Phase.crc 4096#13 0#9 4095#13 [] [] []) = .ok .crcByte ∧
    selected (scene Phase.crc 4096#13 0#9 4096#13 [] [] []) = .ok .crcFinal ∧
    selected (scene Phase.boot 0#13 0#9 0#13 [] [] []) = .ok .banner ∧
    selected (scene Phase.idle 0#13 0#9 0#13 [] [] []) = .ok .cycleStart ∧
    selected (scene Phase.report 1#13 500#9 1#13 [] [] []) = .ok .reportUpdated := by decide +kernel

/-- For CrcByteEffect, CrcFinalEffect and AccessesInsideAndNoWrap: the full buffer, at its last cell and after it. -/
theorem witness_full_pass :
    Inv (scene Phase.crc 4096#13 0#9 4095#13 (filled 4096) [] []) ∧
    selected (scene Phase.crc 4096#13 0#9 4095#13 (filled 4096) [] []) = .ok .crcByte ∧
    (scene Phase.crc 4096#13 0#9 4095#13 (filled 4096) [] []).idx.toNat ≤ 4095 ∧
    Inv (scene Phase.crc 4096#13 0#9 4096#13 (filled 4096) [] []) ∧
    selected (scene Phase.crc 4096#13 0#9 4096#13 (filled 4096) [] []) = .ok .crcFinal :=
  ⟨inv_scene (by decide) rfl (by decide) (by decide) (by decide) (by decide) (by decide) (by decide),
    (selected_crc rfl rfl).trans (by decide +kernel), by decide +kernel,
    inv_scene (by decide) rfl (by decide) (by decide) (by decide) (by decide) (by decide) (by decide),
    (selected_crc rfl rfl).trans (by decide +kernel)⟩

/-- For CollectEndEffect: both reasons; for AccessesInsideAndNoWrap: the last byte and the last tick. -/
theorem witness_collection_ends :
    Inv (scene Phase.collect 4095#13 500#9 0#13 (filled 4095) [] []) ∧
    Inv (scene Phase.collect 4096#13 0#9 0#13 (filled 4096) [] []) ∧
    Inv (scene Phase.collect 4095#13 499#9 0#13 (filled 4095) [0x41] []) ∧
    Inv (scene Phase.collect 4095#13 499#9 0#13 (filled 4095) [] []) :=
  ⟨inv_scene (by decide) rfl (by decide) (by decide) (by decide) (by decide) (by decide) (by decide),
    inv_scene (by decide) rfl (by decide) (by decide) (by decide) (by decide) (by decide) (by decide),
    inv_scene (by decide) rfl (by decide) (by decide) (by decide) (by decide) (by decide) (by decide),
    inv_scene (by decide) rfl (by decide) (by decide) (by decide) (by decide) (by decide) (by decide)⟩

/-- For CrcPassComputesFrame: the shortest and the longest frame. -/
theorem witness_crc_pass :
    (∀ n : Nat, n = 1 ∨ n = 4096 →
      let s := scene Phase.done (BitVec.ofNat 13 n) 0#9 0#13 (filled n) [] (quiets 4098)
      s.phase = Phase.done ∧ s.env.pending = none ∧ 1 ≤ s.len.toNat ∧ s.len.toNat ≤ 4096 ∧
        NoResetFor (s.len.toNat + 2) s) := by
  rintro n (rfl | rfl) <;> exact ⟨rfl, rfl, by decide, by decide, noReset_of_quiets (m := 4098) rfl (by decide)⟩

/-- For FrameReadAndWrite and OperationsStopOffTheTable: each side of the buffer's edge. -/
theorem witness_frame_edges :
    (0#13 : Count).toNat ≤ 4095 ∧ (4095#13 : Count).toNat ≤ 4095 ∧ 4096 ≤ (4096#13 : Count).toNat ∧
    4096 ≤ (8191#13 : Count).toNat ∧ Memory.wf (filled 3) = true := by decide

/-- For RxByteEffect and the waiting clauses of the effect statements. -/
theorem witness_effect_clauses :
    (let s := scene Phase.collect 4095#13 0#9 0#13 [] [0x7F, 0x80] []
     s.env.rxQueue = 0x7F#8 :: [0x80#8] ∧ s.len.toNat ≤ 4095 ∧ s.len.toNat = 4095 ∧ s.env.pending = none) ∧
    (let s := scene Phase.collect 0#13 499#9 0#13 [] [] []
     s.env.rxQueue = [] ∧ s.env.grant = true ∧ s.idle.toNat = 499 ∧
       (s.setEnv (s.env.setGrant false)).env.rxQueue = [] ∧ (s.setEnv (s.env.setGrant false)).env.grant = false) ∧
    (let s := scene Phase.collect 0#13 499#9 0#13 [] [0x41] []
     (s.setEnv (s.env.setPending (some .idleTick))).env.pending = some .idleTick ∧
       (s.setEnv (s.env.setPending (some .idleTick))).env.grant = true) := by decide

/-- For OperationsStopOffTheTable: the first address outside the buffer. -/
theorem witness_off_table :
    (let s := scene Phase.collect 4096#13 0#9 4096#13 [] [0x41] []
     s.env.rxQueue ≠ [] ∧ s.env.pending ≠ some .idleTick ∧ 4096 ≤ s.len.toNat ∧ 4096 ≤ s.idx.toNat) ∧
    (scene Phase.collect 0#13 0#9 0#13 [] [] []).env.rxQueue = [] := by decide

/-- For EveryCollectionEnds: at its start, at the threshold and with the buffer full. -/
theorem witness_collection_bounds :
    (let s := scene Phase.collect 0#13 0#9 0#13 [] [] (quiets 2048001)
     s.phase = Phase.collect ∧ s.env.pending = none ∧ s.len.toNat ≤ 4096 ∧ s.idle.toNat ≤ 500 ∧
       FairFor ((4096 - s.len.toNat) * 500 + 1) s) ∧
    (let s := scene Phase.collect 4096#13 500#9 0#13 [] [] (quiets 1)
     s.phase = Phase.collect ∧ s.env.pending = none ∧ s.len.toNat ≤ 4096 ∧ s.idle.toNat ≤ 500 ∧
       FairFor ((4096 - s.len.toNat) * 500 + 1) s) :=
  ⟨⟨rfl, rfl, by decide, by decide, fair_of_quiets (m := 2048001) rfl (by decide)⟩,
    ⟨rfl, rfl, by decide, by decide, fair_of_quiets (m := 1) rfl (by decide)⟩⟩

/-- For CollectionRefinesCollect. -/
theorem witness_whole_collection :
    let s := scene Phase.collect 0#13 0#9 0#13 [] [0x41] (quiets 2048001)
    s.phase = Phase.collect ∧ s.env.pending = none ∧ s.len = 0#13 ∧ s.idle = 0#9 ∧ FairFor 2048001 s :=
  ⟨rfl, rfl, rfl, rfl, fair_of_quiets (m := 2048001) rfl (Nat.le_refl _)⟩

/-- For SilentCollectionIs500Sleeps. -/
theorem witness_silent_collection :
    let s := scene Phase.collect 0#13 0#9 0#13 [] [] (quiets 501)
    s.phase = Phase.collect ∧ s.env.pending = none ∧ s.len = 0#13 ∧ s.idle = 0#9 ∧ s.env.rxQueue = [] ∧
      (∀ k, k < 500 → EnvMove.fair (moveAt s k) = true ∧ (moveAt s k).arrive = []) ∧ (moveAt s 500).rst = none := by
  refine ⟨rfl, rfl, rfl, rfl, rfl, fun k hk => ?_, ?_⟩
  · rw [moveAt_of_quiets (m := 501) rfl (by omega)]
    exact ⟨rfl, rfl⟩
  · rw [moveAt_of_quiets (m := 501) rfl (by decide)]
    rfl

/-- For CycleRefinesBigStep. -/
theorem witness_whole_cycle :
    let s := scene Phase.idle 0#13 0#9 0#13 [] [0x41] (quiets 2052101)
    s.phase = Phase.idle ∧ s.env.pending = none ∧ FairFor 2052101 s :=
  ⟨rfl, rfl, fair_of_quiets (m := 2052101) rfl (Nat.le_refl _)⟩

/-- For BannerEffect's and ReportUpdatedEffect's clauses on the phases that operations lead to. -/
theorem witness_phase_clauses :
    (sceneOf .crcFinal).phase ≠ Phase.boot ∧ (sceneOf .crcFinal).phase ≠ Phase.report ∧
    (nextOf (exec .crcFinal (sceneOf .crcFinal))).map State.phase = some Phase.report := by decide +kernel

/-- For ReportNodataEffect's last clause: an earlier cycle without data, after a reset that came after an updated
report. -/
theorem witness_first_report :
    let s := (sceneOf .reportNodata).setEnv ((sceneOf .reportNodata).env.setRes
      [{ isNew := true, crc := 5#32 }, { isNew := false, crc := 0#32 }])
    HeldSince 1 s ∧ (∀ r ∈ s.env.res.drop 1, r.isNew = false) ∧ s.env.pending = none ∧
      selected s = .ok .reportNodata :=
  ⟨⟨by decide +kernel, by decide +kernel⟩, by decide +kernel, by decide +kernel, by decide +kernel⟩

/-- For HexDigitsOfWord: digits below and above ten, at both ends of the text. -/
theorem witness_hex_digits :
    (0xA0000009#32 : Word).toNat / 16 ^ (7 - 7) % 16 < 10 ∧ 10 ≤ (0xA0000009#32 : Word).toNat / 16 ^ (7 - 0) % 16 := by
  decide

/-- For ReportTextTellsRecord. -/
theorem witness_same_report :
    reportMsg { isNew := true, crc := 0#32 } = reportMsg { isNew := true, crc := 0#32 } := rfl

/-- For StuckStaysStuck and StepRunsSelectedOperation: a send and a sleep that the environment withholds for two steps. -/
theorem witness_stuck :
    (∀ i, i = Instr.banner ∨ i = Instr.idleTick →
      let s := scene Phase.collect 1#13 3#9 0#13 (filled 1) [0x41] [withheld, withheld]
      let w := s.setEnv (s.env.setPending (some i))
      w.env.pending = some i ∧ (sends i = true ∨ i = .idleTick) ∧ w.phase.toNat ≤ 5 ∧ (nextMove w).rst = none ∧
        (match blockStep (envMoved w) with
          | .refused r => some r
          | _ => none) = some Refusal.stuck ∧
        ∀ k, k < 2 → (moveAt w k).grants = false ∧ (moveAt w k).rst = none ∧ (moveAt w k).lost = 0) := by
  rintro i (rfl | rfl) <;> decide

/-- For ResetInAnyState: reset before anything was done, and in the middle of a message. -/
theorem witness_reset_moves :
    (nextMove (scene Phase.boot 0#13 0#9 0#13 [] [] [resetAfter 0])).rst = some 0 ∧
    (nextMove (scene Phase.boot 0#13 0#9 0#13 [] [] [resetAfter 3])).rst = some 3 ∧
    (nextOf (step (scene Phase.boot 0#13 0#9 0#13 [] [] [resetAfter 3]))).map (fun t => t.env.tx) =
      some [0x53#8, 0x65#8, 0x71#8] := by decide

/-- For StartUpSequence. -/
theorem witness_fair_moves :
    EnvMove.fair EnvMove.quiet = true ∧
    EnvMove.fair { lost := 1, arrive := [0x41], grants := true, rst := none } = true := by decide

/-- A dead cell and dead values beside the same visible state. -/
def deadTwin (s : State) : State := { s with frame := s.frame ++ [(7, 0x99#8)], crc := 5#32, idx := 9#13 }

/-- For DeadStateInvisible: two different states that look the same. -/
theorem witness_same_visible :
    Inv (sceneOf .crcInit) ∧ Inv (deadTwin (sceneOf .crcInit)) ∧
    SameVisible (sceneOf .crcInit) (deadTwin (sceneOf .crcInit)) ∧
    sceneOf .crcInit ≠ deadTwin (sceneOf .crcInit) := by
  refine ⟨scenes_inv _, ?_, ?_, by decide +kernel⟩
  · exact
      { phaseLegal := by decide, lenRange := by decide, idleRange := by decide, idxRange := by decide
        idxBelowLen := by decide, frameWf := by decide, frameWritten := by decide, fullThenFresh := by decide
        endedHow := by decide, passNonempty := by decide, pendingSelected := fun _ h => nomatch h }
  · exact
      { env := rfl, phase := rfl, len := rfl, idle := rfl, lastCrc := rfl
        frame := fun a ha => by
          have h0 : a = 0 := by
            have : (sceneOf .crcInit).len.toNat = 1 := rfl
            omega
          subst h0
          rfl
        pass := by decide }

/-- For PerformedWordIsOfItsRow and ConditionSignals: a tick that has waited, its invariant, and a byte queued since. -/
theorem witness_waited_tick :
    let s := scene Phase.collect 1#13 3#9 0#13 (filled 1) [0x41] (quiets 1)
    let w := s.setEnv (s.env.setPending (some .idleTick))
    w.env.pending ≠ none ∧ Inv w ∧ performed? w = some .idleTick ∧ s.env.pending = none ∧ cRx s = true := by
  refine ⟨by decide, ?_, by decide +kernel, rfl, by decide +kernel⟩
  have h : Inv (scene Phase.collect 1#13 3#9 0#13 (filled 1) [0x41] (quiets 1)) :=
    inv_scene (by decide) rfl (by decide) (by decide) (by decide) (by decide) (by decide) (by decide)
  exact { h with pendingSelected := fun i hi => by cases hi; decide +kernel }

end Sys2Proof.Tests
end

section
/-! PROOFS. The condition signals of 10_state.md R29. -/

namespace Sys2Proof.Machine

/-- The poll answers `Some(_)` exactly when a byte is queued (10_state.md R31). -/
theorem rxPoll_answers_iff (s : State) : (∃ b t, rxPoll s = (some b, t)) ↔ s.env.rxQueue ≠ [] := by
  constructor
  · rintro ⟨b, t, h⟩
    obtain ⟨rest, hq, -⟩ := (rxPoll_some_iff s t b).mp h
    exact hq ▸ List.cons_ne_nil b rest
  · intro h
    obtain ⟨b, rest, hq⟩ := List.exists_cons_of_ne_nil h
    exact ⟨b, _, (rxPoll_some_iff s _ b).mpr ⟨rest, hq, rfl⟩⟩

/-- Holds inside a wait as well: no poll is made there, so `c_rx` is 0. -/
theorem cRx_eq_true (s : State) : cRx s = true ↔ pollMade s = true ∧ ∃ b t, rxPoll s = (some b, t) := by
  rw [rxPoll_answers_iff, cRx, Bool.and_eq_true, Bool.not_eq_true', List.isEmpty_eq_false_iff]

theorem cRx_eq_true_of_free {s : State} (hp : s.env.pending = none) :
    cRx s = true ↔ s.phase = Phase.collect ∧ cRun s = true ∧ ∃ b t, rxPoll s = (some b, t) := by
  rw [cRx_eq_true, pollMade_eq_true, and_iff_right hp, and_assoc]

/-- Settles O2: each signal by the lemma that reads it as a proposition. -/
theorem conditionSignals : Obligations.ConditionSignals := fun s =>
  ⟨cRun_eq_true s, cRx_eq_true_of_free, cNonempty_eq_true s, cMore_eq_true s⟩

end Sys2Proof.Machine
end

section
/-! PROOFS. The two primitives of the frame buffer, `MemRead` and `MemWrite` (20_memory.md R63). -/

namespace Sys2Proof.Machine

theorem memRead_of_lt {s : State} {a : Count} (ha : a.toNat < Config.maxDataLen) :
    memRead s a = .ok (cell s a.toNat) :=
  (memRead_ok_iff s a _).mpr ⟨ha, rfl⟩

theorem memWrite_of_lt {s : State} {a : Count} (ha : a.toNat < Config.maxDataLen) (v : Byte) :
    memWrite s a v = .ok (s.setFrame (s.frame.write a.toNat v)) :=
  (memWrite_ok_iff s _ a v).mpr ⟨ha, rfl⟩

/-- An address that can be written can be read back. -/
theorem memRead_of_memWrite {s t : State} {a : Count} {v : Byte} (h : memWrite s a v = .ok t) :
    memRead t a = .ok v := by
  obtain ⟨ha, rfl⟩ := (memWrite_ok_iff s t a v).mp h
  rw [memRead_of_lt ha, cell_setFrame_write_same]

theorem cell_of_memWrite_other {s t : State} {a : Count} {v : Byte} (h : memWrite s a v = .ok t) {b : Nat}
    (hb : b ≠ a.toNat) : cell t b = cell s b := by
  obtain ⟨-, rfl⟩ := (memWrite_ok_iff s t a v).mp h
  exact cell_setFrame_write_other s _ b v hb

/-- The frame rule of a write: every register and the environment stay. -/
theorem memWrite_changes_frame_only {s t : State} {a : Count} {v : Byte} (h : memWrite s a v = .ok t) :
    t = { s with frame := t.frame } := by
  obtain ⟨-, rfl⟩ := (memWrite_ok_iff s t a v).mp h
  rfl

theorem memWrite_keeps_wf {s t : State} {a : Count} {v : Byte} (h : memWrite s a v = .ok t)
    (hwf : s.frame.wf = true) : t.frame.wf = true := by
  obtain ⟨ha, rfl⟩ := (memWrite_ok_iff s t a v).mp h
  exact Memory.wf_write v hwf ha

/-- Settles O23: inside `FRAME` both primitives answer, and the rules of a write say what its answer is. -/
theorem frameReadAndWrite : Obligations.FrameReadAndWrite := by
  intro s a v hle
  have ha : a.toNat < Config.maxDataLen := Nat.lt_succ_of_le hle
  have hw := memWrite_of_lt (s := s) ha v
  exact ⟨memRead_of_lt ha, _, hw, memRead_of_memWrite hw, fun _ => cell_of_memWrite_other hw,
    memWrite_changes_frame_only hw, memWrite_keeps_wf hw⟩

end Sys2Proof.Machine
end

section
/-! PROOFS. The selection word and the operation table (30_encoding.md R90 to R94). -/

namespace Sys2Proof

/-! ### The word and its fields -/

/-- The bits of the word of some fields: four condition signals, and `phase` above them. -/
theorem Sel.word_getLsbD (f : Sel) (i : Nat) : f.word.getLsbD i =
    match i with
    | 0 => f.cMore
    | 1 => f.cNonempty
    | 2 => f.cRx
    | 3 => f.cRun
    | k + 4 => f.phase.getLsbD k := by
  -- The lemma on appended vectors sees the sum of the widths only here, not in the `7` of `SelWord`.
  have happend : f.word.getLsbD i = (f.phase ++ BitVec.ofBool f.cRun ++ BitVec.ofBool f.cRx ++
      BitVec.ofBool f.cNonempty ++ BitVec.ofBool f.cMore).getLsbD i := rfl
  simp only [happend, BitVec.getLsbD_append]
  match i with
  | 0 | 1 | 2 | 3 => simp
  | k + 4 => simp

/-- No field is lost or moved between the fields and the word. -/
@[simp] theorem Sel.ofWord_word (f : Sel) : Sel.ofWord f.word = f := by
  have hphase : f.word.extractLsb' 4 3 = f.phase := by
    apply BitVec.eq_of_getLsbD_eq
    intro i hi
    rw [BitVec.getLsbD_extractLsb', decide_eq_true hi, Bool.true_and, Nat.add_comm, Sel.word_getLsbD]
  rw [Sel.ofWord, hphase]
  simp only [Sel.word_getLsbD]

/-- Every word of seven bits is the word of its fields. -/
@[simp] theorem Sel.word_ofWord (w : SelWord) : (Sel.ofWord w).word = w := by
  apply BitVec.eq_of_getLsbD_eq
  intro i hi
  rw [Sel.word_getLsbD]
  match i with
  | 0 | 1 | 2 | 3 => rfl
  | k + 4 =>
    have hk : k < 3 := by omega
    simp only [Sel.ofWord, BitVec.getLsbD_extractLsb', decide_eq_true hk, Bool.true_and, Nat.add_comm]

/-! ### The rows of the table -/

theorem OpRow.matches_iff (r : OpRow) (w : SelWord) : r.matches w = true ↔ w &&& r.mask = r.pattern := beq_iff_eq

/-- Two rows that match one word agree on the bits that both fix. -/
theorem OpRow.patterns_agree {r q : OpRow} {w : SelWord} (hr : r.matches w = true) (hq : q.matches w = true) :
    r.pattern &&& q.mask = q.pattern &&& r.mask := by
  rw [← (r.matches_iff w).mp hr, ← (q.matches_iff w).mp hq, BitVec.and_assoc, BitVec.and_assoc,
    BitVec.and_comm r.mask]

/-- Any two different rows of the table differ on a bit that both fix. -/
theorem opTable_rows_conflict : ∀ r ∈ opTable, ∀ q ∈ opTable, r.pattern &&& q.mask = q.pattern &&& r.mask → r = q := by
  decide

/-- At most one row matches a word (30_encoding.md R94). -/
theorem opTable_match_unique {r q : OpRow} {w : SelWord} (hr : r ∈ opTable) (hq : q ∈ opTable)
    (hrw : r.matches w = true) (hqw : q.matches w = true) : r = q :=
  opTable_rows_conflict r hr q hq (OpRow.patterns_agree hrw hqw)

theorem opTable_nodup : opTable.Nodup := by decide

/-! ### The decoder -/

/-- The decoder answers the operation of the row that matches, wherever in the table it stands. -/
theorem decodeSel_ok_iff (w : SelWord) (i : Instr) :
    decodeSel w = .ok i ↔ ∃ r ∈ opTable, r.op = i ∧ r.matches w = true := by
  cases hfind : opTable.find? (fun r => r.matches w) with
  | none =>
    have hnone := List.find?_eq_none.mp hfind
    simp only [decodeSel, hfind, reduceCtorEq, false_iff]
    rintro ⟨r, hr, -, hrw⟩
    exact hnone r hr hrw
  | some q =>
    have hq := List.mem_of_find?_eq_some hfind
    have hqw : q.matches w = true := List.find?_some (p := fun r : OpRow => r.matches w) hfind
    simp only [decodeSel, hfind, Except.ok.injEq]
    constructor
    · exact fun hop => ⟨q, hq, hop, hqw⟩
    · rintro ⟨r, hr, hop, hrw⟩
      rw [opTable_match_unique hq hr hqw hrw, hop]

/-- The decoder refuses exactly the words that no row matches. -/
theorem decodeSel_error_iff (w : SelWord) :
    decodeSel w = .error .reservedPhase ↔ ∀ r ∈ opTable, ¬ r.matches w = true := by
  rw [← List.find?_eq_none, decodeSel]
  cases opTable.find? (fun r => r.matches w) <;> simp

/-- Where a row of the table matches, it is the only one. -/
theorem opTable_filter_of_match {r : OpRow} {w : SelWord} (hr : r ∈ opTable) (hrw : r.matches w = true) :
    opTable.filter (fun q => q.matches w) = [r] := by
  have hone : ∀ q ∈ opTable, q.matches w = (q == r) := fun q hq =>
    Bool.eq_iff_iff.mpr
      ⟨fun hqw => beq_iff_eq.mpr (opTable_match_unique hq hr hqw hrw), fun h => beq_iff_eq.mp h ▸ hrw⟩
  rw [List.filter_congr hone, List.filter_beq, List.count_eq_one_of_mem opTable_nodup hr, List.replicate_one]

end Sys2Proof

namespace Sys2Proof.Machine

/-- What the decoder answers, from the fields of a word. -/
theorem decodeSel_eq_opOfFields (w : SelWord) : decodeSel w = opOfFields (Sel.ofWord w) := by
  rw [← decodeSel_word, Sel.word_ofWord]

/-- Phases 0 to 5 leave no word without an operation. -/
theorem opOfFields_total {f : Sel} (h : f.phase.toNat ≤ 5) : ∃ i, opOfFields f = .ok i := by
  rcases phase_cases f.phase h with hp | hp | hp | hp | hp | hp <;> simp [opOfFields, hp]

/-- Settles O1: the layout from `Sel.ofWord_word`, field by field; the row from what the decoder answers. -/
theorem selectionWordLayout : Obligations.SelectionWordLayout := by
  refine ⟨fun s => ?_, fun s i hp => ?_⟩
  · have hfields : Sel.ofWord (selWord s) = selFields s := Sel.ofWord_word (selFields s)
    exact ⟨congrArg Sel.phase hfields, congrArg Sel.cRun hfields, congrArg Sel.cRx hfields,
      congrArg Sel.cNonempty hfields, congrArg Sel.cMore hfields⟩
  · simp only [selected_eq_decodeSel hp, decodeSel_ok_iff, OpRow.matches_iff]

/-- Settles O4: at most one row matches since any two rows conflict; at least one does on phases 0 to 5, since the decoder
answers there; none does on phases 6 and 7, since it refuses. -/
theorem tableTotalAndUnambiguous : Obligations.TableTotalAndUnambiguous := by
  refine fun w => ⟨fun hlegal => ?_, fun hreserved => ?_⟩
  · obtain ⟨i, hi⟩ := opOfFields_total (f := Sel.ofWord w) hlegal
    have hdecode : decodeSel w = .ok i := (decodeSel_eq_opOfFields w).trans hi
    obtain ⟨r, hr, rfl, hrw⟩ := (decodeSel_ok_iff w i).mp hdecode
    exact ⟨r, opTable_filter_of_match hr hrw, hdecode⟩
  · have hdecode : decodeSel w = .error .reservedPhase :=
      (decodeSel_eq_opOfFields w).trans (opOfFields_reserved (f := Sel.ofWord w) hreserved)
    exact ⟨List.filter_eq_nil_iff.mpr ((decodeSel_error_iff w).mp hdecode), hdecode⟩

end Sys2Proof.Machine
end

section
/-! PROOFS. Operand assembly: how a byte enters the register, how the result leaves it, and the digits of a word
(30_encoding.md R96, R97, R101). -/

namespace Sys2Proof.Machine

/-! ### The reflections -/

theorem reflect8_getLsbD (b : Byte) {i : Nat} (hi : i < 8) : (reflect8 b).getLsbD i = b.getLsbD (7 - i) := by
  rw [reflect8, BitVec.getLsbD_reverse, BitVec.getMsbD_eq_getLsbD, decide_eq_true hi, Bool.true_and]

theorem reflect32_getLsbD (v : Word) {i : Nat} (hi : i < 32) : (reflect32 v).getLsbD i = v.getLsbD (31 - i) := by
  rw [reflect32, BitVec.getLsbD_reverse, BitVec.getMsbD_eq_getLsbD, decide_eq_true hi, Bool.true_and]

/-! ### The assembled byte -/

/-- Bits 31 to 24 of the assembled byte are the byte's bits 0 to 7. -/
theorem byteOperand_getLsbD_top (b : Byte) {i : Nat} (hi : i < 8) :
    (byteOperand b).getLsbD (31 - i) = b.getLsbD i := by
  have hindex : 31 - i - 24 = 7 - i := by omega
  have hwidth : 31 - i < 32 := by omega
  have htop : ¬ 31 - i < 24 := by omega
  calc (byteOperand b).getLsbD (31 - i)
      = (reflect8 b).getLsbD (7 - i) := by
        simp [byteOperand, hindex, hwidth, htop]
    _ = b.getLsbD (7 - (7 - i)) := reflect8_getLsbD b (by omega)
    _ = b.getLsbD i := by rw [Nat.sub_sub_self (by omega)]

theorem byteOperand_getLsbD_low (b : Byte) {i : Nat} (hi : i < 24) : (byteOperand b).getLsbD i = false := by
  simp [byteOperand, hi]

/-- The eight bit steps come after the XOR of the whole byte (40_crc32_engine.md R133). -/
theorem bytestep_eq_iterate (c : Word) (b : Byte) : bytestep c b = bitstep^[8] (c ^^^ byteOperand b) := rfl

/-- Settles O11: bit by bit from the bits of the assembled byte. -/
theorem byteEntersRegister : Obligations.ByteEntersRegister := by
  refine ⟨fun c b i => ⟨fun hi => ?_, fun hi => ?_⟩, fun _ => rfl, bytestep_eq_iterate⟩
  · rw [BitVec.getLsbD_xor, byteOperand_getLsbD_top b hi]
  · rw [BitVec.getLsbD_xor, byteOperand_getLsbD_low b hi, Bool.xor_false]

/-! ### The result -/

/-- `FINAL_XOR` (00_scope.md R6) complements every bit. -/
theorem finalXor_eq_allOnes : Config.finalXor = BitVec.allOnes 32 := by decide

theorem crcResult_getLsbD (c : Word) {i : Nat} (hi : i < 32) :
    (crcResult c).getLsbD i = !c.getLsbD (31 - i) := by
  rw [crcResult, finalXor_eq_allOnes, BitVec.xor_allOnes, BitVec.getLsbD_not, reflect32_getLsbD c hi,
    decide_eq_true hi, Bool.true_and]

/-- Settles O13: the formula is the definition, its bits are those of the reflection, complemented. -/
theorem resultLeavesRegister : Obligations.ResultLeavesRegister :=
  fun c => ⟨rfl, fun _ => crcResult_getLsbD c⟩

/-! ### The digits of a word -/

/-- The `j`-th hexadecimal digit of a word, counted from the bottom, as a number. -/
theorem hexDigitField_toNat (v : Word) (j : Nat) : (v.extractLsb' (4 * j) 4).toNat = v.toNat / 16 ^ j % 16 := by
  rw [BitVec.extractLsb'_toNat, Nat.shiftRight_eq_div_pow, Nat.pow_mul]

theorem hexDigit_toNat_of_lt {n : BitVec 4} (h : n.toNat < 10) : (hexDigit n).toNat = 0x30 + n.toNat := by
  rw [hexDigit, if_pos h, BitVec.toNat_add, BitVec.toNat_setWidth, BitVec.toNat_ofNat]
  omega

theorem hexDigit_toNat_of_ge {n : BitVec 4} (h : 10 ≤ n.toNat) : (hexDigit n).toNat = 0x41 + (n.toNat - 10) := by
  have := n.isLt
  rw [hexDigit, if_neg (by omega), BitVec.toNat_add, BitVec.toNat_sub, BitVec.toNat_setWidth, BitVec.toNat_ofNat,
    BitVec.toNat_ofNat]
  omega

@[simp] theorem hex8_length (v : Word) : (hex8 v).length = 8 := rfl

/-- The text holds the digits most significant first: byte `k` is digit `7 - k`. -/
theorem hex8_getElem? (v : Word) {k : Nat} (hk : k < 8) :
    (hex8 v)[k]? = some (hexDigit (v.extractLsb' (4 * (7 - k)) 4)) := by
  match k, hk with
  | 0, _ | 1, _ | 2, _ | 3, _ | 4, _ | 5, _ | 6, _ | 7, _ => rfl

/-- Settles O39: byte `k` of the text is the character of digit `7 - k`. -/
theorem hexDigitsOfWord : Obligations.HexDigitsOfWord := by
  refine fun v => ⟨hex8_length v, fun k hk => ?_⟩
  rw [hex8_getElem? v hk, Option.map_some, ← hexDigitField_toNat]
  exact ⟨fun h => congrArg some (hexDigit_toNat_of_lt h), fun h => congrArg some (hexDigit_toNat_of_ge h)⟩

end Sys2Proof.Machine
end

section
/-! PROOFS. The pure functions of the CRC32Engine (40_crc32_engine.md R130 to R134) and its reflected form (R145). -/

namespace Sys2Proof.Machine

/-- Settles O10: the bits of each reflection. -/
theorem reflectionsReverseBits : Obligations.ReflectionsReverseBits :=
  ⟨fun b _ => reflect8_getLsbD b, fun v _ => reflect32_getLsbD v⟩

/-! ### The bit step -/

theorem shiftLeft_one_getLsbD (c : Word) {i : Nat} (hi : i < 32) :
    (c <<< 1).getLsbD i = (decide (0 < i) && c.getLsbD (i - 1)) := by
  rw [BitVec.getLsbD_shiftLeft, decide_eq_true hi, Bool.true_and, ← decide_not]
  simp only [Nat.not_lt, Nat.succ_le_iff]

/-- Settles O12: the bits of the shift, and the polynomial's bits where bit 31 was set. -/
theorem bitstepBits : Obligations.BitstepBits := by
  intro c i hi
  rw [bitstep]
  cases c.getLsbD 31 with
  | false => rw [if_neg Bool.false_ne_true, shiftLeft_one_getLsbD c hi, Bool.false_and, Bool.xor_false]
  | true => rw [if_pos rfl, BitVec.getLsbD_xor, shiftLeft_one_getLsbD c hi, Bool.true_and, Config.poly]

/-! ### The register after a sequence of bytes -/

theorem crcRegister_eq_foldl (c : Word) (data : List Byte) : crcRegister c data = data.foldl bytestep c := by
  induction data generalizing c with
  | nil => rfl
  | cons b rest ih => exact ih (bytestep c b)

/-- One more byte at the end of the sequence is one more byte step. -/
theorem crcRegister_concat (c : Word) (data : List Byte) (b : Byte) :
    crcRegister c (data ++ [b]) = bytestep (crcRegister c data) b := by
  simp only [crcRegister_eq_foldl, List.foldl_concat]

/-- Settles O14: the register is the fold, and `compute` its result. -/
theorem computeIsAFold : Obligations.ComputeIsAFold := by
  intro data
  rw [← crcRegister_eq_foldl]
  rfl

/-! ### The reflected form -/

theorem reflect32_xor (a b : Word) : reflect32 (a ^^^ b) = reflect32 a ^^^ reflect32 b := by
  apply BitVec.eq_of_getLsbD_eq
  intro i hi
  simp only [BitVec.getLsbD_xor, reflect32_getLsbD _ hi]

/-- The two directions of the shift are reflections of each other. -/
theorem reflect32_shiftLeft_one (c : Word) : reflect32 (c <<< 1) = reflect32 c >>> 1 := by
  apply BitVec.eq_of_getLsbD_eq
  intro i hi
  rw [reflect32_getLsbD _ hi, shiftLeft_one_getLsbD c (by omega), BitVec.getLsbD_ushiftRight]
  by_cases hlast : i = 31
  · subst hlast
    simp
  · rw [reflect32_getLsbD c (by omega), decide_eq_true (by omega), Bool.true_and, Nat.sub_sub, Nat.add_comm]

/-- A byte enters the reflected register unreflected, at the bottom (40_crc32_engine.md R145). -/
theorem reflect32_byteOperand (b : Byte) : reflect32 (byteOperand b) = b.setWidth 32 := by
  apply BitVec.eq_of_getLsbD_eq
  intro i hi
  rw [reflect32_getLsbD _ hi, BitVec.getLsbD_setWidth, decide_eq_true hi, Bool.true_and]
  by_cases hbyte : i < 8
  · exact byteOperand_getLsbD_top b hbyte
  · rw [byteOperand_getLsbD_low b (by omega), BitVec.getLsbD_of_ge b i (by omega)]

/-- A bit step and a reflection commute, each form with its own bit step. -/
theorem reflect32_bitstep (c : Word) : reflect32 (bitstep c) = reflectedBitstep (reflect32 c) := by
  have hbit : (reflect32 c).getLsbD 0 = c.getLsbD 31 := reflect32_getLsbD c (by decide)
  rw [bitstep, reflectedBitstep, hbit]
  split
  · rw [reflect32_xor, reflect32_shiftLeft_one]
  · exact reflect32_shiftLeft_one c

theorem reflect32_bytestep (c : Word) (b : Byte) :
    reflect32 (bytestep c b) = reflectedBytestep (reflect32 c) b := by
  have hsteps : Function.Semiconj reflect32 bitstep^[8] reflectedBitstep^[8] :=
    Function.Semiconj.iterate_right reflect32_bitstep 8
  calc reflect32 (bytestep c b)
      = reflectedBitstep^[8] (reflect32 (c ^^^ byteOperand b)) := hsteps _
    _ = reflectedBitstep^[8] (reflect32 c ^^^ b.setWidth 32) := by rw [reflect32_xor, reflect32_byteOperand]
    _ = reflectedBytestep (reflect32 c) b := rfl

/-- The registers are reflections of each other at every byte boundary (40_crc32_engine.md R145). -/
theorem reflect32_crcRegister (c : Word) (data : List Byte) :
    reflect32 (crcRegister c data) = reflectedRegister (reflect32 c) data := by
  induction data generalizing c with
  | nil => rfl
  | cons b rest ih => rw [crcRegister, reflectedRegister, ih, reflect32_bytestep]

/-- The initial value is its own reflection, so both forms start alike. -/
theorem reflect32_initCrc : reflect32 Config.initCrc = Config.initCrc := by decide +kernel

/-- Settles O16: the registers at the end of the data, and the result of the left-shifting one. -/
theorem reflectedFormComputesTheSame : Obligations.ReflectedFormComputesTheSame := by
  refine ⟨by decide +kernel, fun data => ?_⟩
  have hregister := reflect32_crcRegister Config.initCrc data
  rw [reflect32_initCrc] at hregister
  exact ⟨hregister.symm, congrArg (· ^^^ Config.finalXor) hregister⟩

end Sys2Proof.Machine
end

section
/-! PROOFS. The operations CRC_INIT, CRC_BYTE and CRC_FINAL: encoding, selection and effect (40_crc32_engine.md R135 to
R137). -/

namespace Sys2Proof

/-! ### Encoding -/

/-- An operation has one row only (30_encoding.md R92). -/
theorem opTable_op_unique : ∀ r ∈ opTable, ∀ q ∈ opTable, r.op = q.op → r = q := by decide

/-- The words that decode to an operation are those its row matches. -/
theorem decodeSel_row_iff {r : OpRow} (hr : r ∈ opTable) (w : SelWord) :
    decodeSel w = .ok r.op ↔ w &&& r.mask = r.pattern := by
  rw [decodeSel_ok_iff, ← OpRow.matches_iff]
  constructor
  · rintro ⟨q, hq, hop, hqw⟩
    exact opTable_op_unique q hq r hr hop ▸ hqw
  · exact fun hrw => ⟨r, hr, rfl, hrw⟩

end Sys2Proof

namespace Sys2Proof.Machine

/-! ### Selection -/

/-- The phase in which the table selects an operation (30_encoding.md R92); `opOfFields_phase` ties it to the table. -/
def phaseOf : Instr → PhaseBits
  | .banner => Phase.boot
  | .cycleStart => Phase.idle
  | .rxByte | .idleTick | .collectEnd => Phase.collect
  | .crcInit | .reportNodata => Phase.done
  | .crcByte | .crcFinal => Phase.crc
  | .reportUpdated => Phase.report

theorem opOfFields_phase {f : Sel} {i : Instr} (h : opOfFields f = .ok i) : f.phase = phaseOf i := by
  by_cases hlegal : f.phase.toNat ≤ 5
  · rcases phase_cases f.phase hlegal with hp | hp | hp | hp | hp | hp
    all_goals
      rw [opOfFields, hp] at h
      obtain rfl := Except.ok.inj h
      simp only [hp, apply_ite phaseOf]
      simp only [phaseOf, ite_self]
  · rw [opOfFields_reserved (Nat.lt_of_not_le hlegal)] at h
    cases h

section
variable {s : State} (hp : s.env.pending = none)
include hp

theorem selected_phase {i : Instr} (h : selected s = .ok i) : s.phase = phaseOf i :=
  opOfFields_phase (f := selFields s) ((selected_free hp).symm.trans h)

/-- Where an operation is selected: in its phase, and there as its condition signals say. -/
theorem selected_iff_of_phase {i : Instr} {cond : Prop}
    (hcond : s.phase = phaseOf i → (selected s = .ok i ↔ cond)) :
    selected s = .ok i ↔ s.phase = phaseOf i ∧ cond := by
  constructor
  · exact fun h => ⟨selected_phase hp h, (hcond (selected_phase hp h)).mp h⟩
  · exact fun ⟨hphase, h⟩ => (hcond hphase).mpr h

theorem selected_crcInit_iff : selected s = .ok .crcInit ↔ s.phase = Phase.done ∧ 1 ≤ s.len.toNat := by
  refine selected_iff_of_phase hp fun hphase => ?_
  rw [selected_done hp hphase, Nat.succ_le_iff, ← cNonempty_eq_true]
  cases cNonempty s <;> simp

theorem selected_crcByte_iff : selected s = .ok .crcByte ↔ s.phase = Phase.crc ∧ s.idx.toNat < s.len.toNat := by
  refine selected_iff_of_phase hp fun hphase => ?_
  rw [selected_crc hp hphase, ← cMore_eq_true]
  cases cMore s <;> simp

theorem selected_crcFinal_iff :
    selected s = .ok .crcFinal ↔ s.phase = Phase.crc ∧ ¬ s.idx.toNat < s.len.toNat := by
  refine selected_iff_of_phase hp fun hphase => ?_
  rw [selected_crc hp hphase, ← cMore_eq_true]
  cases cMore s <;> simp

end

/-! ### Effect -/

theorem exec_crcInit (s : State) :
    exec .crcInit s = .next { s with crc := Config.initCrc, idx := 0#13, phase := Phase.crc } := rfl

theorem exec_crcByte {s : State} (h : s.idx.toNat < Config.maxDataLen) :
    exec .crcByte s =
      .next { s with crc := bytestep s.crc (cell s s.idx.toNat), idx := s.idx + 1#13, phase := Phase.crc } := by
  have harm : exec .crcByte s = execCrcByte s := rfl
  rw [harm, execCrcByte, memRead_of_lt h]
  rfl

theorem exec_crcFinal (s : State) :
    exec .crcFinal s = .next { s with lastCrc := crcResult s.crc, phase := Phase.report } := rfl

/-- `CRC_FINAL` is the sole writer of `last_crc` (40_crc32_engine.md R137). -/
theorem exec_keeps_lastCrc {i : Instr} {s t : State} (hi : i ≠ .crcFinal) (h : exec i s = .next t) :
    t.lastCrc = s.lastCrc := by
  cases i with
  | banner =>
    obtain ⟨-, rfl⟩ := execBanner_next h
    rfl
  | cycleStart =>
    obtain ⟨-, rfl⟩ := execCycleStart_next h
    rfl
  | rxByte =>
    obtain ⟨b, rest, -, -, rfl⟩ := execRxByte_next h
    rfl
  | idleTick =>
    obtain ⟨-, -, rfl⟩ := execIdleTick_next h
    rfl
  | collectEnd =>
    obtain rfl := execCollectEnd_next h
    rfl
  | crcInit =>
    obtain rfl := execCrcInit_next h
    rfl
  | reportNodata =>
    obtain ⟨-, rfl⟩ := execReportNodata_next h
    rfl
  | crcByte =>
    obtain ⟨-, rfl⟩ := execCrcByte_next h
    rfl
  | crcFinal => exact absurd rfl hi
  | reportUpdated =>
    obtain ⟨-, rfl⟩ := execReportUpdated_next h
    rfl

/-! ### The counts of the pass under the invariant, and the statements -/

/-- A selected `CRC_BYTE` reads a written cell of `FRAME` (10_state.md R44 e, f). -/
theorem Inv.crcByte_reads_written {s : State} (h : Inv s) (hphase : s.phase = Phase.crc)
    (hmore : s.idx.toNat < s.len.toNat) :
    s.idx.toNat < Config.maxDataLen ∧ (s.frame.read? s.idx.toNat).isSome = true := by
  have hlive : frameLive s.phase = true := by rw [hphase]; rfl
  exact ⟨Nat.lt_of_lt_of_le hmore h.lenRange, h.frameWritten hlive _ hmore⟩

/-- Inside `FRAME` the 13-bit count does not wrap. -/
theorem toNat_add_one_of_lt {a : Count} (ha : a.toNat < Config.maxDataLen) : (a + 1#13).toNat = a.toNat + 1 := by
  rw [Config.maxDataLen] at ha
  rw [BitVec.toNat_add, BitVec.toNat_ofNat]
  omega

/-- The pass ends where `idx` has reached `len` (10_state.md R44 d). -/
theorem Inv.idx_eq_len {s : State} (h : Inv s) (hphase : s.phase = Phase.crc) (hend : ¬ s.idx.toNat < s.len.toNat) :
    s.idx = s.len :=
  BitVec.eq_of_toNat_eq (Nat.le_antisymm (h.idxBelowLen (.inl hphase)) (Nat.le_of_not_lt hend))

/-- Settles O19: its row, where it is selected, and its meaning in every state. -/
theorem crcInitEffect : Obligations.CrcInitEffect :=
  ⟨decodeSel_row_iff (r := ⟨.crcInit, 0x32#7, 0x72#7⟩) (by decide), fun _ => selected_crcInit_iff, exec_crcInit⟩

/-- Settles O20: its row, where it is selected, and its meaning; under the invariant a selected one has `idx` below `len`,
so inside `FRAME`. -/
theorem crcByteEffect : Obligations.CrcByteEffect := by
  refine ⟨decodeSel_row_iff (r := ⟨.crcByte, 0x41#7, 0x71#7⟩) (by decide), fun _ => selected_crcByte_iff,
    fun s hle => ?_, fun s hinv hp hsel => ?_⟩
  · have hlt : s.idx.toNat < Config.maxDataLen := Nat.lt_succ_of_le hle
    exact ⟨memRead_of_lt hlt, exec_crcByte hlt⟩
  · obtain ⟨hphase, hmore⟩ := (selected_crcByte_iff hp).mp hsel
    obtain ⟨hlt, hwritten⟩ := hinv.crcByte_reads_written hphase hmore
    exact ⟨Nat.le_of_lt_succ hlt, hwritten, toNat_add_one_of_lt hlt⟩

/-- Settles O21: its row, where it is selected, its meaning, and no other writer; under the invariant the pass ends at
`len`. -/
theorem crcFinalEffect : Obligations.CrcFinalEffect := by
  refine ⟨decodeSel_row_iff (r := ⟨.crcFinal, 0x40#7, 0x71#7⟩) (by decide), fun _ => selected_crcFinal_iff,
    exec_crcFinal, fun _ _ _ => exec_keeps_lastCrc, fun s hinv hp hsel => ?_⟩
  obtain ⟨hphase, hend⟩ := (selected_crcFinal_iff hp).mp hsel
  have hidx := hinv.idx_eq_len hphase hend
  exact ⟨hidx, hidx ▸ hinv.passNonempty (.inl hphase)⟩

end Sys2Proof.Machine
end

section
/-! PROOFS. The CRC pass: CRC_INIT, one CRC_BYTE for each byte of the frame, CRC_FINAL (40_crc32_engine.md R141). -/

namespace Sys2Proof.Machine

/-! ### Runs that perform an operation in every step -/

theorem run_succ {s t : State} (h : step s = .next t) (k : Nat) : run (k + 1) s = run k t := by
  rw [run, h]

theorem opsOfRun_succ {s t : State} (h : step s = .next t) (k : Nat) :
    opsOfRun (k + 1) s = (performed? s).toList ++ opsOfRun k t := by
  rw [opsOfRun, h]

/-- The next steps from `s`, one for each of `ops`, perform these operations with nothing in between and end in `t`. -/
structure Performs (s : State) (ops : List Instr) (t : State) : Prop where
  ends : run ops.length s = .next t
  performed : opsOfRun ops.length s = ops

theorem Performs.nil (s : State) : Performs s [] s := ⟨rfl, rfl⟩

/-- Without a reset, a step performs the selected operation where that answers a next state. -/
theorem Performs.cons {s u t : State} {i : Instr} {ops : List Instr} (hr : (nextMove s).rst = none)
    (hsel : selected (envMoved s) = .ok i) (hexec : exec i (envMoved s) = .next u) (h : Performs u ops t) :
    Performs s (i :: ops) t := by
  have hblock : blockStep (envMoved s) = .next u := (blockStep_of_selected hsel).trans hexec
  have hstep : step s = .next u := (step_of_blockStep hr (by simp [hblock])).trans hblock
  have hperf : performed? s = some i := performed?_eq_some.mpr ⟨hr, hsel, u, hexec⟩
  constructor
  · exact (run_succ hstep _).trans h.ends
  · rw [List.length_cons, opsOfRun_succ hstep, hperf, h.performed]
    rfl

/-! ### The moves of the environment alone -/

/-- What no move of the environment changes, no number of moves changes. -/
theorem iterate_envMoved_keeps {α : Type} {view : State → α} (h : ∀ s, view (envMoved s) = view s) (k : Nat)
    (s : State) : view (envMoved^[k] s) = view s :=
  congrFun (Function.iterate_invariant (funext h) k) s

theorem nextMove_iterate_envMoved (k : Nat) (s : State) : nextMove (envMoved^[k] s) = moveAt s k := by
  induction k generalizing s with
  | zero => exact (moveAt_zero s).symm
  | succ k ih =>
    rw [Function.iterate_succ_apply, ih]
    exact moveAt_succ (envMoved_script s) (envMoved_moves s) k

/-! ### The states of the pass -/

/-- The state of the pass from `s` in which `k` bytes are consumed: `CRC_INIT` and the bytes took a step each, and only
the environment's own moves, `crc`, `idx` and `phase` tell it from `s`. -/
def passState (s : State) (k : Nat) : State :=
  { envMoved^[k + 1] s with
    crc := crcRegister Config.initCrc ((frameBytes s).take k), idx := BitVec.ofNat 13 k, phase := Phase.crc }

/-- The state after the `CRC_FINAL` of the pass from `s`. -/
def passEnd (s : State) : State :=
  { envMoved^[s.len.toNat + 2] s with
    crc := crcRegister Config.initCrc (frameBytes s), lastCrc := compute (frameBytes s), idx := s.len
    phase := Phase.report }

theorem nextMove_passState (s : State) (k : Nat) : nextMove (passState s k) = moveAt s (k + 1) :=
  nextMove_iterate_envMoved (k + 1) s

theorem passState_not_reset {s : State} {k : Nat} (hquiet : NoResetFor (s.len.toNat + 2) s) (hk : k ≤ s.len.toNat) :
    (nextMove (passState s k)).rst = none := by
  rw [nextMove_passState]
  exact hquiet (k + 1) (by omega)

theorem passState_pending {s : State} (hp : s.env.pending = none) (k : Nat) :
    (passState s k).env.pending = none :=
  (iterate_envMoved_keeps (view := fun u => u.env.pending) envMoved_pending (k + 1) s).trans hp

theorem passState_len (s : State) (k : Nat) : (passState s k).len = s.len :=
  iterate_envMoved_keeps envMoved_len (k + 1) s

theorem passState_idx_toNat (s : State) {k : Nat} (hk : k ≤ Config.maxDataLen) : (passState s k).idx.toNat = k := by
  have hwidth : k < 2 ^ 13 := Nat.lt_of_le_of_lt hk (by decide)
  exact (BitVec.toNat_ofNat k 13).trans (Nat.mod_eq_of_lt hwidth)

theorem cell_passState (s : State) (k a : Nat) : cell (passState s k) a = cell s a :=
  iterate_envMoved_keeps (view := fun u => cell u a) (fun u => cell_envMoved u a) (k + 1) s

/-- The register after one more byte of the frame. -/
theorem crcRegister_take_succ (c : Word) (s : State) {k : Nat} (hk : k < s.len.toNat) :
    crcRegister c ((frameBytes s).take (k + 1)) =
      bytestep (crcRegister c ((frameBytes s).take k)) (cell s k) := by
  have hlength : k < (frameBytes s).length := (frameBytes_length s).symm ▸ hk
  rw [List.take_succ_eq_append_getElem hlength, frameBytes_getElem, crcRegister_concat]

/-- The whole frame is consumed where `k` has reached its length. -/
theorem passState_len_crc (s : State) :
    (passState s s.len.toNat).crc = crcRegister Config.initCrc (frameBytes s) := by
  rw [passState, List.take_of_length_le (frameBytes_length s).le]

theorem passState_len_idx (s : State) : (passState s s.len.toNat).idx = s.len :=
  (BitVec.ofNat_toNat 13 s.len).trans (BitVec.setWidth_eq s.len)

/-! ### The operations of the pass -/

/-- `CRC_INIT` enters the pass. -/
theorem exec_crcInit_passState (s : State) : exec .crcInit (envMoved s) = .next (passState s 0) :=
  exec_crcInit (envMoved s)

/-- `CRC_BYTE` consumes the next byte of the frame. -/
theorem exec_crcByte_passState {s : State} {k : Nat} (hlen : s.len.toNat ≤ Config.maxDataLen) (hk : k < s.len.toNat) :
    exec .crcByte (envMoved (passState s k)) = .next (passState s (k + 1)) := by
  have hidx : (envMoved (passState s k)).idx.toNat = k := passState_idx_toNat s (hk.le.trans hlen)
  have hnext : (envMoved (passState s k)).idx + 1#13 = BitVec.ofNat 13 (k + 1) := (BitVec.ofNat_add k 1).symm
  have hcrc : bytestep (envMoved (passState s k)).crc (cell s k) =
      crcRegister Config.initCrc ((frameBytes s).take (k + 1)) := (crcRegister_take_succ _ s hk).symm
  rw [exec_crcByte (hidx.trans_lt (hk.trans_le hlen)), hidx, hnext, cell_envMoved, cell_passState, hcrc,
    passState.eq_def s (k + 1), Function.iterate_succ_apply']
  rfl

/-- `CRC_FINAL` ends the pass with the checksum of the frame. -/
theorem exec_crcFinal_passState (s : State) :
    exec .crcFinal (envMoved (passState s s.len.toNat)) = .next (passEnd s) := by
  rw [exec_crcFinal, envMoved_crc, passState_len_crc, envMoved_idx, passState_len_idx, passEnd,
    Function.iterate_succ_apply']
  rfl

section
variable {s : State} (hp : s.env.pending = none)
include hp

theorem selected_passState_final : selected (envMoved (passState s s.len.toNat)) = .ok .crcFinal := by
  refine (selected_crcFinal_iff (s := envMoved (passState s s.len.toNat)) (passState_pending hp _)).mpr ⟨rfl, ?_⟩
  rw [envMoved_idx, envMoved_len, passState_len_idx, passState_len]
  exact Nat.lt_irrefl _

variable {k : Nat} (hlen : s.len.toNat ≤ Config.maxDataLen)
include hlen

theorem selected_passState_byte (hk : k < s.len.toNat) : selected (envMoved (passState s k)) = .ok .crcByte := by
  refine (selected_crcByte_iff (s := envMoved (passState s k)) (passState_pending hp k)).mpr ⟨rfl, ?_⟩
  rw [envMoved_idx, envMoved_len, passState_idx_toNat s (hk.le.trans hlen), passState_len]
  exact hk

/-- The rest of the pass, from the state in which all but `m` bytes are consumed. -/
theorem performs_rest_of_pass (hquiet : NoResetFor (s.len.toNat + 2) s) {m : Nat} (hkm : k + m = s.len.toNat) :
    Performs (passState s k) (List.replicate m .crcByte ++ [.crcFinal]) (passEnd s) := by
  induction m generalizing k with
  | zero =>
    obtain rfl : k = s.len.toNat := hkm
    exact .cons (passState_not_reset hquiet le_rfl) (selected_passState_final hp) (exec_crcFinal_passState s)
      (.nil _)
  | succ m ih =>
    have hk : k < s.len.toNat := by omega
    exact .cons (passState_not_reset hquiet hk.le) (selected_passState_byte hp hlen hk)
      (exec_crcByte_passState hlen hk) (ih (by omega))

/-- The pass from phase `DONE` with a frame that is not empty. -/
theorem performs_pass (hphase : s.phase = Phase.done) (hne : 1 ≤ s.len.toNat)
    (hquiet : NoResetFor (s.len.toNat + 2) s) : Performs s (computeOps s.len.toNat) (passEnd s) := by
  have hr : (nextMove s).rst = none := moveAt_zero s ▸ hquiet 0 (Nat.succ_pos _)
  have hsel : selected (envMoved s) = .ok .crcInit := (selected_crcInit_iff (s := envMoved s) hp).mpr ⟨hphase, hne⟩
  exact .cons hr hsel (exec_crcInit_passState s) (performs_rest_of_pass hp hlen hquiet (Nat.zero_add _))

end

theorem computeOps_length (n : Nat) : (computeOps n).length = n + 2 := by
  simp [computeOps]

/-- Settles O22: the pass, and what its last state holds. -/
theorem crcPassComputesFrame : Obligations.CrcPassComputesFrame := by
  intro s hphase hp hne hlen hquiet
  obtain ⟨hends, hops⟩ := performs_pass hp hlen hphase hne hquiet
  rw [computeOps_length] at hends hops
  exact ⟨hops, passEnd s, hends, rfl, rfl, rfl, iterate_envMoved_keeps envMoved_len _ s,
    iterate_envMoved_keeps envMoved_idle _ s, iterate_envMoved_keeps envMoved_frame _ s,
    iterate_envMoved_keeps (view := fun u => u.env.tx) envMoved_tx _ s,
    iterate_envMoved_keeps (view := fun u => u.env.res) envMoved_res _ s,
    iterate_envMoved_keeps (view := fun u => u.env.time) envMoved_time _ s⟩

end Sys2Proof.Machine
end

section
/-! PROOFS. The collector's guard and the operations RX_BYTE and COLLECT_END: encoding, selection and effect
(41_frame_collector.md R162, R163, R165). -/

namespace Sys2Proof.Machine

/-! ### Selection -/

section
variable {s : State} (hp : s.env.pending = none)
include hp

theorem selected_rxByte_iff :
    selected s = .ok .rxByte ↔ s.phase = Phase.collect ∧ cRun s = true ∧ s.env.rxQueue ≠ [] := by
  refine selected_iff_of_phase hp fun hphase => ?_
  rw [selected_collect hp hphase]
  cases cRun s <;> cases s.env.rxQueue <;> simp

theorem selected_idleTick_iff :
    selected s = .ok .idleTick ↔ s.phase = Phase.collect ∧ cRun s = true ∧ s.env.rxQueue = [] := by
  refine selected_iff_of_phase hp fun hphase => ?_
  rw [selected_collect hp hphase]
  cases cRun s <;> cases s.env.rxQueue <;> simp

theorem selected_collectEnd_iff : selected s = .ok .collectEnd ↔ s.phase = Phase.collect ∧ cRun s = false := by
  refine selected_iff_of_phase hp fun hphase => ?_
  rw [selected_collect hp hphase]
  cases cRun s <;> cases s.env.rxQueue <;> simp

end

/-- Settles O28: the guard alone decides for COLLECT_END, and where it holds the queue decides between the other two. -/
theorem collectionGuard : Obligations.CollectionGuard := fun s hphase hp =>
  ⟨fun hguard => (selected_collectEnd_iff hp).mpr ⟨hphase, (cRun_eq_false s).mpr hguard⟩,
    fun hidle hlen hq => (selected_rxByte_iff hp).mpr ⟨hphase, (cRun_eq_true s).mpr ⟨hidle, hlen⟩, hq⟩,
    fun hidle hlen hq => (selected_idleTick_iff hp).mpr ⟨hphase, (cRun_eq_true s).mpr ⟨hidle, hlen⟩, hq⟩⟩

/-! ### COLLECT_END -/

theorem exec_collectEnd (s : State) : exec .collectEnd s = .next { s with phase := Phase.done } := rfl

/-- Under the invariant the guard fails for exactly one of its two reasons (10_state.md R44 g). -/
theorem Inv.one_reason_to_end {s : State} (h : Inv s) (hrun : cRun s = false) :
    (s.idle.toNat = 500 ∧ s.len.toNat ≤ 4095) ∨ (s.len.toNat = 4096 ∧ s.idle.toNat = 0) := by
  have hguard : ¬ (s.idle.toNat < 500 ∧ s.len.toNat < 4096) := (cRun_eq_false s).mp hrun
  have hlen : s.len.toNat ≤ 4096 := h.lenRange
  have hidle : s.idle.toNat ≤ 500 := h.idleRange
  have hfull : s.len.toNat = 4096 → s.idle.toNat = 0 := h.fullThenFresh
  omega

/-- Settles O27: its row, where it is selected, its meaning in every state, and the one reason the invariant leaves. -/
theorem collectEndEffect : Obligations.CollectEndEffect := by
  refine ⟨decodeSel_row_iff (r := ⟨.collectEnd, 0x20#7, 0x78#7⟩) (by decide), fun s hp => ?_, exec_collectEnd,
    fun s hinv hp hsel => ?_⟩
  · exact (selected_collectEnd_iff hp).trans (and_congr_right' (cRun_eq_false s))
  · obtain ⟨-, hrun⟩ := (selected_collectEnd_iff hp).mp hsel
    exact hinv.one_reason_to_end hrun

/-! ### RX_BYTE -/

/-- The state after the byte `b` is taken from the queue and stored at the old `len`. -/
def byteStored (s : State) (b : Byte) : State :=
  { s with
    frame := s.frame.write s.len.toNat b, len := s.len + 1#13, idle := 0#9, phase := Phase.collect
    env := { s.env with rxQueue := s.env.rxQueue.tail } }

theorem exec_rxByte {s : State} {b : Byte} {rest : List Byte} (hq : s.env.rxQueue = b :: rest)
    (hlen : s.len.toNat < Config.maxDataLen) : exec .rxByte s = .next (byteStored s b) := by
  have hpoll : rxPoll s = (some b, s.setEnv (s.env.setRxQueue rest)) := (rxPoll_some_iff s _ b).mpr ⟨rest, hq, rfl⟩
  have harm : exec .rxByte s = execRxByte s := rfl
  simp only [harm, execRxByte, hpoll, State.setEnv_len]
  rw [memWrite_of_lt hlen, byteStored, hq]
  rfl

theorem cell_byteStored_same (s : State) (b : Byte) : cell (byteStored s b) s.len.toNat = b :=
  cell_setFrame_write_same s s.len.toNat b

theorem cell_byteStored_other (s : State) (b : Byte) {a : Nat} (ha : a ≠ s.len.toNat) :
    cell (byteStored s b) a = cell s a :=
  cell_setFrame_write_other s s.len.toNat a b ha

theorem cRun_of_full {s : State} (h : s.len.toNat = Config.maxDataLen) : cRun s = false :=
  (cRun_eq_false s).mpr fun hguard => hguard.2.ne h

/-- Settles O25: its row, where it is selected, and its meaning where a byte is queued and the buffer has room; the
4096th byte makes the guard fail, so the next operation is COLLECT_END. -/
theorem rxByteEffect : Obligations.RxByteEffect := by
  refine ⟨decodeSel_row_iff (r := ⟨.rxByte, 0x2C#7, 0x7C#7⟩) (by decide), fun s hp => ?_, fun s b rest hq hle => ?_⟩
  · rw [selected_rxByte_iff hp, cRun_eq_true, and_assoc]
    rfl
  · have hlt : s.len.toNat < Config.maxDataLen := Nat.lt_succ_of_le hle
    have hlen : (byteStored s b).len.toNat = s.len.toNat + 1 := toNat_add_one_of_lt hlt
    refine ⟨byteStored s b, exec_rxByte hq hlt, ?_, hlen, cell_byteStored_same s b,
      fun _ => cell_byteStored_other s b, fun hlast hp => ?_⟩
    · rw [byteStored, hq]
      rfl
    · have hrun : cRun (byteStored s b) = false := cRun_of_full (hlen.trans (congrArg (· + 1) hlast))
      exact ⟨hrun, (selected_collectEnd_iff (s := envMoved (byteStored s b)) hp).mpr ⟨rfl, hrun⟩⟩

end Sys2Proof.Machine
end

section
/-! PROOFS. A whole collection: the polls from any point of it up to COLLECT_END refine the big-step `collect`
(41_frame_collector.md R169, R170). -/

namespace Sys2Proof.Machine

/-! ### The big-step form -/

theorem collectFrom_end {frame : List Byte} {idle : Nat}
    (h : ¬ (idle < Config.idleThreshold ∧ frame.length < Config.maxDataLen)) (n : Nat) (rest : List (Option Byte)) :
    collectFrom frame idle n rest = some (frame, n) := by
  cases rest <;> exact if_neg h

theorem collectFrom_byte {frame : List Byte} {idle : Nat}
    (h : idle < Config.idleThreshold ∧ frame.length < Config.maxDataLen) (n : Nat) (b : Byte)
    (rest : List (Option Byte)) :
    collectFrom frame idle n (some b :: rest) = collectFrom (frame ++ [b]) 0 (n + 1) rest := by
  rw [collectFrom, if_pos h]

theorem collectFrom_silence {frame : List Byte} {idle : Nat}
    (h : idle < Config.idleThreshold ∧ frame.length < Config.maxDataLen) (n : Nat) (rest : List (Option Byte)) :
    collectFrom frame idle n (none :: rest) = collectFrom frame (idle + 1) (n + 1) rest := by
  rw [collectFrom, if_pos h]

/-! ### One poll -/

/-- The state after the 1 ms sleep that follows a poll without an answer. -/
def ticked (s : State) : State :=
  { s with
    idle := s.idle + 1#9, phase := Phase.collect
    env := { s.env with time := s.env.time + 1, pending := none } }

theorem exec_idleTick {s : State} (hq : s.env.rxQueue = []) (hgrant : s.env.grant = true) :
    exec .idleTick s = .next (ticked s) := by
  have harm : exec .idleTick s = execIdleTick s := rfl
  rw [harm, execIdleTick, if_pos (.inr hq), awaitEnv_granted hgrant]
  rfl

/-- The answer to the poll of the coming step, where it makes one. -/
def coming (s : State) : Option Byte := (envMoved s).env.rxQueue.head?

/-- The operation that an answer leads to (41_frame_collector.md R163, R164). -/
def pollOp (answer : Option Byte) : Instr := if answer.isSome then .rxByte else .idleTick

/-- The state in which an operation led to by an answer ends. -/
def answered (s : State) : Option Byte → State
  | some b => byteStored s b
  | none => ticked s

/-- The state after a step of the collection that polls, with its sleep ended. -/
def polled (s : State) : State := answered (envMoved s) (coming s)

/-- What no operation of a collection writes. -/
def untouched (s : State) : Word × Count × Word × List Byte × List ResRecord :=
  (s.crc, s.idx, s.lastCrc, s.env.tx, s.env.res)

/-- How many polls the collection can still make (41_frame_collector.md R170). -/
def pollsLeft (s : State) : Nat := (4096 - s.len.toNat) * 500 - s.idle.toNat

theorem selected_pollOp {s : State} (hp : s.env.pending = none) (hphase : s.phase = Phase.collect)
    (hrun : cRun s = true) : selected s = .ok (pollOp s.env.rxQueue.head?) := by
  cases hq : s.env.rxQueue with
  | nil => exact (selected_idleTick_iff hp).mpr ⟨hphase, hrun, hq⟩
  | cons b rest => exact (selected_rxByte_iff hp).mpr ⟨hphase, hrun, hq ▸ List.cons_ne_nil b rest⟩

theorem exec_pollOp {s : State} (hgrant : s.env.grant = true) (hrun : cRun s = true) :
    exec (pollOp s.env.rxQueue.head?) s = .next (answered s s.env.rxQueue.head?) := by
  cases hq : s.env.rxQueue with
  | nil => exact exec_idleTick hq hgrant
  | cons b rest => exact exec_rxByte hq ((cRun_eq_true s).mp hrun).2

theorem polled_phase (s : State) : (polled s).phase = Phase.collect := by
  rw [polled]
  cases coming s <;> rfl

theorem polled_pending {s : State} (hp : s.env.pending = none) : (polled s).env.pending = none := by
  rw [polled]
  cases coming s with
  | none => rfl
  | some b => exact hp

theorem polled_untouched (s : State) : untouched (polled s) = untouched s := by
  rw [polled]
  cases coming s <;> rfl

/-- Each answer `None` is one sleep, and nothing else lets time pass. -/
theorem polled_time (s : State) : (polled s).env.time = s.env.time + [coming s].count none := by
  rw [polled]
  cases coming s <;> rfl

theorem moveAt_polled (s : State) (k : Nat) : moveAt (polled s) k = moveAt s (k + 1) := by
  refine moveAt_succ ?_ ?_ k <;> (rw [polled]; cases coming s <;> rfl)

theorem frameBytes_byteStored {s : State} (b : Byte) (hlen : s.len.toNat < Config.maxDataLen) :
    frameBytes (byteStored s b) = frameBytes s ++ [b] := by
  have hcount : (byteStored s b).len.toNat = s.len.toNat + 1 := toNat_add_one_of_lt hlen
  have hkept : ∀ a ∈ List.range s.len.toNat, cell (byteStored s b) a = cell s a := fun a ha =>
    cell_byteStored_other s b (List.mem_range.mp ha).ne
  rw [frameBytes, hcount, List.range_succ, List.map_append, List.map_congr_left hkept, List.map_singleton,
    cell_byteStored_same, frameBytes]

theorem idle_add_one_toNat {i : IdleCount} (h : i.toNat < Config.idleThreshold) : (i + 1#9).toNat = i.toNat + 1 := by
  rw [Config.idleThreshold] at h
  rw [BitVec.toNat_add, BitVec.toNat_ofNat]
  omega

section
variable {s : State} (hrun : cRun s = true)
include hrun

/-- A poll is one step of the big-step form. -/
theorem collectFrom_polled (n : Nat) (rest : List (Option Byte)) :
    collectFrom (frameBytes s) s.idle.toNat n (coming s :: rest) =
      collectFrom (frameBytes (polled s)) (polled s).idle.toNat (n + 1) rest := by
  obtain ⟨hidle, hlen⟩ := (cRun_eq_true s).mp hrun
  have hguard : s.idle.toNat < Config.idleThreshold ∧ (frameBytes s).length < Config.maxDataLen :=
    ⟨hidle, (frameBytes_length s).symm ▸ hlen⟩
  rw [polled]
  cases coming s with
  | none =>
    have hcount : (ticked (envMoved s)).idle.toNat = s.idle.toNat + 1 := idle_add_one_toNat hidle
    rw [collectFrom_silence hguard, answered, hcount]
    rfl
  | some b =>
    have hframe : frameBytes (byteStored (envMoved s) b) = frameBytes s ++ [b] :=
      frameBytes_byteStored (s := envMoved s) b hlen
    rw [collectFrom_byte hguard, answered, hframe]
    rfl

/-- The decreasing measure of 41_frame_collector.md R170, as one number. -/
theorem pollsLeft_polled : pollsLeft (polled s) < pollsLeft s := by
  obtain ⟨hidle, hlen⟩ := (cRun_eq_true s).mp hrun
  have hidle' : s.idle.toNat < 500 := hidle
  have hlen' : s.len.toNat < 4096 := hlen
  rw [polled]
  cases coming s with
  | none =>
    have hcount : (ticked (envMoved s)).idle.toNat = s.idle.toNat + 1 := idle_add_one_toNat hidle
    have hsame : (ticked (envMoved s)).len = s.len := rfl
    rw [answered, pollsLeft, hcount, hsame, pollsLeft]
    omega
  | some b =>
    have hcount : (byteStored (envMoved s) b).len.toNat = s.len.toNat + 1 := toNat_add_one_of_lt hlen
    have hzero : (byteStored (envMoved s) b).idle.toNat = 0 := rfl
    rw [answered, pollsLeft, hcount, hzero, pollsLeft]
    omega

end

/-! ### The moves ahead -/

theorem FairFor.not_reset {n : Nat} {s : State} (h : FairFor (n + 1) s) : (nextMove s).rst = none := by
  have hfair := h 0 (Nat.succ_pos n)
  rw [moveAt_zero, EnvMove.fair, Bool.and_eq_true, Option.isNone_iff_eq_none] at hfair
  exact hfair.2

theorem FairFor.grants {n : Nat} {s : State} (h : FairFor (n + 1) s) : (nextMove s).grants = true := by
  have hfair := h 0 (Nat.succ_pos n)
  rw [moveAt_zero, EnvMove.fair, Bool.and_eq_true] at hfair
  exact hfair.1

theorem FairFor.polled {n m : Nat} {s : State} (h : FairFor n s) (hm : m < n) : FairFor m (polled s) := fun k hk =>
  moveAt_polled s k ▸ h (k + 1) (by omega)

/-! ### The collection from any point of it -/

/-- Without a reset, a step is the selected operation where that answers a next state. -/
theorem step_of_exec {s t : State} {i : Instr} (hr : (nextMove s).rst = none) (hsel : selected (envMoved s) = .ok i)
    (hexec : exec i (envMoved s) = .next t) : step s = .next t := by
  have hblock : blockStep (envMoved s) = .next t := (blockStep_of_selected hsel).trans hexec
  exact (step_of_blockStep hr (by simp [hblock])).trans hblock

/-- From `s` the polls with these answers and then COLLECT_END lead to `t`, as the big-step form says. -/
structure Collects (s : State) (answers : List (Option Byte)) (t : State) : Prop where
  performs : Performs s (answers.map pollOp ++ [.collectEnd]) t
  given : answersOf answers.length s = answers
  yields : ∀ n, collectFrom (frameBytes s) s.idle.toNat n answers = some (frameBytes t, n + answers.length)
  ended : t.phase = Phase.done
  time : t.env.time = s.env.time + answers.count none
  kept : untouched t = untouched s

section
variable {s : State} (hp : s.env.pending = none) (hphase : s.phase = Phase.collect) {n : Nat}
  (hfair : FairFor (n + 1) s)
include hp hphase hfair

/-- Where the guard fails the collection ends without a poll. -/
theorem Collects.nil (hrun : cRun s = false) : Collects s [] { envMoved s with phase := Phase.done } where
  performs := .cons hfair.not_reset ((selected_collectEnd_iff (s := envMoved s) hp).mpr ⟨hphase, hrun⟩)
    (exec_collectEnd (envMoved s)) (.nil _)
  given := rfl
  yields k := collectFrom_end ((frameBytes_length s).symm ▸ (cRun_eq_false s).mp hrun) k []
  ended := rfl
  time := rfl
  kept := rfl

/-- Where the guard holds the collection polls and goes on from there. -/
theorem Collects.cons (hrun : cRun s = true) {answers : List (Option Byte)} {t : State}
    (h : Collects (polled s) answers t) : Collects s (coming s :: answers) t := by
  have hsel : selected (envMoved s) = .ok (pollOp (coming s)) := selected_pollOp (s := envMoved s) hp hphase hrun
  have hexec : exec (pollOp (coming s)) (envMoved s) = .next (polled s) :=
    exec_pollOp (s := envMoved s) hfair.grants hrun
  have hstep : step s = .next (polled s) := step_of_exec hfair.not_reset hsel hexec
  exact
    { performs := .cons hfair.not_reset hsel hexec h.performs
      given := by
        rw [List.length_cons, answersOf, hstep]
        exact congrArg (coming s :: ·) h.given
      yields := fun k => by
        rw [collectFrom_polled hrun, h.yields, List.length_cons, Nat.add_right_comm, Nat.add_assoc]
      ended := h.ended
      time := by
        rw [h.time, polled_time, Nat.add_assoc, ← List.count_append, List.singleton_append]
      kept := h.kept.trans (polled_untouched s) }

end

/-- Every collection ends (41_frame_collector.md R170), and as the big-step form says (R169). -/
theorem exists_collects {s : State} (hp : s.env.pending = none) (hphase : s.phase = Phase.collect)
    (hfair : FairFor (pollsLeft s + 1) s) :
    ∃ answers t, answers.length ≤ pollsLeft s ∧ Collects s answers t := by
  induction hleft : pollsLeft s using Nat.strong_induction_on generalizing s with
  | _ left ih =>
    subst hleft
    cases hrun : cRun s with
    | false => exact ⟨[], _, Nat.zero_le _, .nil hp hphase hfair hrun⟩
    | true =>
      have hless := pollsLeft_polled hrun
      obtain ⟨answers, t, hle, hrest⟩ :=
        ih _ hless (polled_pending hp) (polled_phase s) (hfair.polled (Nat.succ_lt_succ hless)) rfl
      exact ⟨coming s :: answers, t, Nat.succ_le_of_lt (hle.trans_lt hless), .cons hp hphase hfair hrun hrest⟩

/-- Settles O31: the collection from its start, where nothing is collected and every poll is still to be made. -/
theorem collectionRefinesCollect : Obligations.CollectionRefinesCollect := by
  intro s hphase hp hlen hidle hfair
  have hleft : pollsLeft s = 2048000 := by rw [pollsLeft, hlen, hidle]; rfl
  have hempty : frameBytes s = [] := (frameBytes_eq_nil_iff s).mpr (by rw [hlen]; rfl)
  obtain ⟨answers, t, hle, h⟩ := exists_collects hp hphase (hleft.symm ▸ hfair)
  have hyields := h.yields 0
  rw [hempty, hidle, Nat.zero_add] at hyields
  have hlength : (answers.map pollOp ++ [Instr.collectEnd]).length = answers.length + 1 := by simp
  obtain ⟨hends, hops⟩ := h.performs
  rw [hlength] at hends hops
  have hkept := h.kept
  simp only [untouched, Prod.mk.injEq] at hkept
  refine ⟨answers.length, t, hle.trans_eq hleft, hends, h.ended, ?_, ?_, ?_, hkept⟩
  · rw [h.given]
    exact hyields
  · rw [h.given, hops]
    rfl
  · rw [h.given]
    exact h.time

end Sys2Proof.Machine
end

section
/-! PROOFS. The dispatch in phase `DONE` on whether the frame is empty (42_sequencer_report.md R192). -/

namespace Sys2Proof.Machine

theorem selected_reportNodata_iff {s : State} (hp : s.env.pending = none) :
    selected s = .ok .reportNodata ↔ s.phase = Phase.done ∧ s.len.toNat = 0 := by
  refine selected_iff_of_phase hp fun hphase => ?_
  rw [selected_done hp hphase, ← Nat.le_zero, ← Nat.not_lt, ← cNonempty_eq_true]
  cases cNonempty s <;> simp

/-- Settles O35: each of the two operations of phase `DONE` by the lemma that says where it is selected. -/
theorem dispatchOnEmptiness : Obligations.DispatchOnEmptiness := fun _ hphase hp =>
  ⟨fun hlen => (selected_crcInit_iff hp).mpr ⟨hphase, hlen⟩,
    fun hlen => (selected_reportNodata_iff hp).mpr ⟨hphase, hlen⟩⟩

end Sys2Proof.Machine
end

section
/-! PROOFS. The reserved phases: refused where a state has one, and reached by no run from reset (60_exceptions.md R232,
10_state.md R44 a). -/

namespace Sys2Proof.Machine

/-! ### The step in a reserved phase -/

theorem blockStep_reserved {s : State} (h : 6 ≤ s.phase.toNat) : blockStep s = .refused .reservedPhase := by
  rw [blockStep, selected_reserved h]

/-- The environment's move leaves the phase, so that the block refuses after it; a refusal is no wait. -/
theorem step_reserved {s : State} (h : 6 ≤ s.phase.toNat) (hr : (nextMove s).rst = none) :
    step s = .refused .reservedPhase := by
  have hblock : blockStep (envMoved s) = .refused .reservedPhase := blockStep_reserved h
  rw [step_of_blockStep hr (by simp [hblock]), hblock]

/-! ### The phase after a step -/

/-- The phase that an operation writes (42_sequencer_report.md R190); `exec_phase` ties it to the meanings. -/
def phaseAfter : Instr → PhaseBits
  | .banner | .reportNodata | .reportUpdated => Phase.idle
  | .cycleStart | .rxByte | .idleTick => Phase.collect
  | .collectEnd => Phase.done
  | .crcInit | .crcByte => Phase.crc
  | .crcFinal => Phase.report

theorem exec_phase {i : Instr} {s t : State} (h : exec i s = .next t) : t.phase = phaseAfter i := by
  cases i with
  | banner =>
    obtain ⟨-, rfl⟩ := execBanner_next h
    rfl
  | cycleStart =>
    obtain ⟨-, rfl⟩ := execCycleStart_next h
    rfl
  | rxByte =>
    obtain ⟨b, rest, -, -, rfl⟩ := execRxByte_next h
    rfl
  | idleTick =>
    obtain ⟨-, -, rfl⟩ := execIdleTick_next h
    rfl
  | collectEnd =>
    obtain rfl := execCollectEnd_next h
    rfl
  | crcInit =>
    obtain rfl := execCrcInit_next h
    rfl
  | reportNodata =>
    obtain ⟨-, rfl⟩ := execReportNodata_next h
    rfl
  | crcByte =>
    obtain ⟨-, rfl⟩ := execCrcByte_next h
    rfl
  | crcFinal =>
    obtain rfl := execCrcFinal_next h
    rfl
  | reportUpdated =>
    obtain ⟨-, rfl⟩ := execReportUpdated_next h
    rfl

/-- No operation writes a reserved phase. -/
theorem phaseAfter_legal (i : Instr) : (phaseAfter i).toNat ≤ 5 := by
  cases i <;> decide

/-- Resets and waits included, and without the rest of the invariant. -/
theorem step_keeps_phaseLegal {s t : State} (hs : s.phase.toNat ≤ 5) (h : step s = .next t) : t.phase.toNat ≤ 5 := by
  rcases step_next_cases h with ⟨p, -, rfl⟩ | ⟨-, i, -, hexec | ⟨-, rfl⟩⟩
  · rw [resetEvent_phase]
    decide
  · rw [exec_phase hexec]
    exact phaseAfter_legal i
  · exact hs

/-! ### Runs -/

/-- What every step keeps, every run keeps. -/
theorem run_keeps {P : State → Prop} (hstep : ∀ s t, P s → step s = .next t → P t) (n : Nat) {s t : State} (hs : P s)
    (h : run n s = .next t) : P t := by
  induction n generalizing s with
  | zero => exact Host.Outcome.next.inj h ▸ hs
  | succ k ih =>
    cases hnext : step s with
    | next u => exact ih (hstep s u hs hnext) ((run_succ hnext k).symm.trans h)
    | fault f =>
      rw [run, hnext] at h
      cases h
    | refused r =>
      rw [run, hnext] at h
      cases h

theorem resetWithScript_phaseLegal (script : List EnvMove) : (resetWithScript script).phase.toNat ≤ 5 := by
  have hboot : (resetWithScript script).phase = Phase.boot := rfl
  rw [hboot]
  decide

/-- Settles O9: the refusal from the selection in a reserved phase; the run from reset since no step leads into one. -/
theorem reservedPhaseRefused : Obligations.ReservedPhaseRefused :=
  ⟨fun _ h hr => step_reserved h hr, fun n script _ h =>
    run_keeps (P := fun s => s.phase.toNat ≤ 5) (fun _ _ => step_keeps_phaseLegal) n
      (resetWithScript_phaseLegal script) h⟩

end Sys2Proof.Machine
end

section
/-! PROOFS. The start-up sequence, BANNER and then CYCLE_START (70_reset_and_hazards.md R251), from any state in phase
`BOOT` with nothing outstanding. -/

namespace Sys2Proof.Machine

/-! ### The two operations where the sink accepts -/

/-- The state after the banner is sent (42_sequencer_report.md R191); `exec_banner` ties it to the meaning. -/
def bannerSent (s : State) : State :=
  { s with phase := Phase.idle, env := { s.env with tx := s.env.tx ++ bannerMsg, pending := none } }

/-- The state after the prompt is sent (41_frame_collector.md R161); `exec_cycleStart` ties it to the meaning. -/
def cycleStarted (s : State) : State :=
  { s with
    len := 0#13, idle := 0#9, phase := Phase.collect
    env := { s.env with tx := s.env.tx ++ readyMsg, pending := none } }

theorem exec_banner {s : State} (hgrant : s.env.grant = true) : exec .banner s = .next (bannerSent s) :=
  awaitEnv_granted hgrant

theorem exec_cycleStart {s : State} (hgrant : s.env.grant = true) :
    exec .cycleStart s = .next (cycleStarted s) :=
  awaitEnv_granted hgrant

/-- A collection just begun is between operations, and its guard holds. -/
theorem pollMade_cycleStarted (s : State) : pollMade (cycleStarted s) = true := by
  have hguard : (0#9).toNat < Config.idleThreshold ∧ (0#13).toNat < Config.maxDataLen := by decide
  exact (pollMade_eq_true _).mpr ⟨rfl, rfl, (cRun_eq_true _).mpr hguard⟩

/-! ### The sequence -/

/-- A step that takes the coming move only leaves the fair moves behind it. -/
theorem FairFor.tail {n : Nat} {s t : State} (h : FairFor (n + 1) s) (hscript : t.env.script = s.env.script.tail)
    (hmoves : t.env.moves = s.env.moves + 1) : FairFor n t := fun k hk =>
  moveAt_succ hscript hmoves k ▸ h (k + 1) (Nat.succ_lt_succ hk)

/-- The state after the start-up sequence from `s`: two moves of the environment, each with its operation. -/
def startedUp (s : State) : State := cycleStarted (envMoved (bannerSent (envMoved s)))

theorem performs_startUp {s : State} (hphase : s.phase = Phase.boot) (hp : s.env.pending = none)
    (hfair : FairFor 2 s) : Performs s [.banner, .cycleStart] (startedUp s) := by
  have hfair' : FairFor 1 (bannerSent (envMoved s)) := hfair.tail rfl rfl
  have hbanner : selected (envMoved s) = .ok .banner := selected_boot (s := envMoved s) hp hphase
  have hstart : selected (envMoved (bannerSent (envMoved s))) = .ok .cycleStart := selected_idle rfl rfl
  exact .cons hfair.not_reset hbanner (exec_banner hfair.grants)
    (.cons hfair'.not_reset hstart (exec_cycleStart hfair'.grants) (.nil _))

theorem startedUp_tx (s : State) : (startedUp s).env.tx = s.env.tx ++ (bannerMsg ++ readyMsg) :=
  List.append_assoc s.env.tx bannerMsg readyMsg

/-- After power-up the environment's moves are those of the script placed. -/
theorem fairFor_resetWithScript {script : List EnvMove} (h : ∀ m ∈ script, EnvMove.fair m = true) :
    FairFor script.length (resetWithScript script) := by
  intro k hk
  have hmove : moveAt (resetWithScript script) k = script[k] := by
    have hscript : (resetWithScript script).env.script = script := rfl
    rw [moveAt, hscript, List.getElem?_eq_getElem hk]
  exact hmove ▸ h _ (List.getElem_mem hk)

/-- Settles O49: the start-up sequence from reset, where the TX stream is empty, and what its last state holds. -/
theorem startUpSequence : Obligations.StartUpSequence := by
  intro m1 m2 h1 h2
  have hfair : FairFor 2 (resetWithScript [m1, m2]) :=
    fairFor_resetWithScript (script := [m1, m2]) (by simp [h1, h2])
  obtain ⟨hends, hops⟩ := performs_startUp (s := resetWithScript [m1, m2]) rfl rfl hfair
  have htx := startedUp_tx (resetWithScript [m1, m2])
  exact ⟨hops, startedUp (resetWithScript [m1, m2]), hends, htx, congrArg List.length htx, rfl, rfl, rfl,
    pollMade_cycleStarted _⟩

end Sys2Proof.Machine
end

section
/-! PROOFS. Every operation as a function of the state: the state it leaves where it is performed, where it is performed,
and where it is stuck (60_exceptions.md R233, R235). -/

namespace Sys2Proof.Machine

/-! ### The state after an operation -/

/-- The state after a report is published and its text sent (42_sequencer_report.md R193, R194). -/
def reported (s : State) (r : ResRecord) : State :=
  { s with
    phase := Phase.idle
    env := { s.env with res := s.env.res ++ [r], tx := s.env.tx ++ reportMsg r, pending := none } }

/-- The state after an operation performed whole; `exec_next` and `exec_granted` tie it to the meanings. An `RX_BYTE`
is performed only where a byte is queued, so the byte named for an empty queue is stored nowhere. -/
def after (i : Instr) (s : State) : State :=
  match i with
  | .banner => bannerSent s
  | .cycleStart => cycleStarted s
  | .rxByte => byteStored s (s.env.rxQueue.headD 0x00#8)
  | .idleTick => ticked s
  | .collectEnd => { s with phase := Phase.done }
  | .crcInit => { s with crc := Config.initCrc, idx := 0#13, phase := Phase.crc }
  | .reportNodata => reported s { isNew := false, crc := s.lastCrc }
  | .crcByte => { s with crc := bytestep s.crc (cell s s.idx.toNat), idx := s.idx + 1#13, phase := Phase.crc }
  | .crcFinal => { s with lastCrc := crcResult s.crc, phase := Phase.report }
  | .reportUpdated => reported s { isNew := true, crc := s.lastCrc }

/-- The operations that wait for the sink or the timer (60_exceptions.md R233). -/
def waits (i : Instr) : Bool := sends i || i == .idleTick

/-- What an operation finds where it does not stop (log 5, log 9). -/
def Ready (i : Instr) (s : State) : Prop :=
  match i with
  | .rxByte => s.env.rxQueue ≠ [] ∧ s.len.toNat < Config.maxDataLen
  | .idleTick => s.env.pending = some .idleTick ∨ s.env.rxQueue = []
  | .crcByte => s.idx.toNat < Config.maxDataLen
  | .banner | .cycleStart | .collectEnd | .crcInit | .reportNodata | .crcFinal | .reportUpdated => True

/-! ### The meanings -/

theorem waits_eq_true (i : Instr) : waits i = true ↔ sends i = true ∨ i = .idleTick := by
  rw [waits, Bool.or_eq_true, beq_iff_eq]

theorem exec_idleTick_eq {s : State} (h : Ready .idleTick s) : exec .idleTick s = awaitEnv s (after .idleTick s) :=
  if_pos h

theorem exec_idleTick_refused {s : State} (h : ¬ Ready .idleTick s) : exec .idleTick s = .refused .byteQueued :=
  if_neg h

/-- An operation that waits is its state after, behind the wait. -/
theorem exec_waits {i : Instr} {s : State} (hi : waits i = true) (h : Ready i s) :
    exec i s = awaitEnv s (after i s) := by
  cases i with
  | idleTick => exact exec_idleTick_eq h
  | banner | cycleStart | reportNodata | reportUpdated => rfl
  | rxByte | collectEnd | crcInit | crcByte | crcFinal => cases hi

theorem after_pending {i : Instr} (hi : waits i = true) (s : State) : (after i s).env.pending = none := by
  cases i with
  | banner | cycleStart | idleTick | reportNodata | reportUpdated => rfl
  | rxByte | collectEnd | crcInit | crcByte | crcFinal => cases hi

theorem after_pending_kept {i : Instr} (hi : waits i = false) (s : State) :
    (after i s).env.pending = s.env.pending := by
  cases i with
  | banner | cycleStart | idleTick | reportNodata | reportUpdated => cases hi
  | rxByte | collectEnd | crcInit | crcByte | crcFinal => rfl

/-- The end of a wait clears the request, which the state after the operation no longer has. -/
theorem setPending_after {i : Instr} (hi : waits i = true) (s : State) :
    (after i s).setEnv ((after i s).env.setPending none) = after i s := by
  have hp := after_pending hi s
  rw [Env.setPending, ← hp]
  rfl

/-- An operation that does not wait is performed at once. -/
theorem exec_at_once {i : Instr} {s : State} (hi : waits i = false) (h : Ready i s) : exec i s = .next (after i s) := by
  cases i with
  | banner | cycleStart | idleTick | reportNodata | reportUpdated => cases hi
  | rxByte =>
    obtain ⟨hq, hlen⟩ := h
    obtain ⟨b, rest, hq⟩ := List.exists_cons_of_ne_nil hq
    rw [exec_rxByte hq hlen, after, hq]
    rfl
  | crcByte => exact exec_crcByte h
  | collectEnd | crcInit | crcFinal => rfl

/-- An operation that waits is performed whole where the environment ends the wait. -/
theorem exec_granted {i : Instr} {s : State} (h : Ready i s) (hgrant : s.env.grant = true) :
    exec i s = .next (after i s) := by
  cases hi : waits i with
  | true => rw [exec_waits hi h, awaitEnv_granted hgrant, setPending_after hi]
  | false => exact exec_at_once hi h

theorem exec_withheld {i : Instr} {s : State} (hi : waits i = true) (h : Ready i s) (hgrant : s.env.grant = false) :
    exec i s = .refused .stuck := by
  rw [exec_waits hi h, awaitEnv_withheld hgrant]

/-! ### The model's own stops (log 5, log 9) -/

theorem exec_rxByte_empty {s : State} (h : s.env.rxQueue = []) : exec .rxByte s = .refused .noByteQueued := by
  simp [exec, execRxByte, rxPoll, h]

theorem exec_rxByte_outside {s : State} (hq : s.env.rxQueue ≠ []) (h : Config.maxDataLen ≤ s.len.toNat) :
    exec .rxByte s = .fault (.frameWriteOutside s.len.toNat) := by
  obtain ⟨b, rest, hq⟩ := List.exists_cons_of_ne_nil hq
  simp [exec, execRxByte, rxPoll, hq, memWrite, Nat.not_lt.mpr h]

theorem exec_crcByte_outside {s : State} (h : Config.maxDataLen ≤ s.idx.toNat) :
    exec .crcByte s = .fault (.frameReadOutside s.idx.toNat) := by
  simp [exec, execCrcByte, memRead, Nat.not_lt.mpr h]

/-- Settles O29: the two polling operations off the table, and the accesses outside `FRAME`. -/
theorem operationsStopOffTheTable : Obligations.OperationsStopOffTheTable :=
  ⟨fun _ => exec_rxByte_empty, fun _ hq hp => exec_idleTick_refused fun h => h.elim hp hq,
    fun _ => exec_rxByte_outside, fun _ => exec_crcByte_outside,
    fun s a v h => ⟨(memRead_error_iff s a _).mpr ⟨h, rfl⟩, (memWrite_error_iff s a v _).mpr ⟨h, rfl⟩⟩⟩

/-! ### Performed, stuck or stopped -/

/-- Where an operation does not find what it needs it stops: a refusal of its own, or a fault. -/
theorem exec_not_ready {i : Instr} {s : State} (h : ¬ Ready i s) :
    (∃ f, exec i s = .fault f) ∨ ∃ r, exec i s = .refused r ∧ r ≠ .stuck := by
  cases i with
  | rxByte =>
    by_cases hq : s.env.rxQueue = []
    · exact .inr ⟨.noByteQueued, exec_rxByte_empty hq, by decide⟩
    · exact .inl ⟨_, exec_rxByte_outside hq (Nat.le_of_not_lt fun hlt => h ⟨hq, hlt⟩)⟩
  | idleTick => exact .inr ⟨.byteQueued, exec_idleTick_refused h, by decide⟩
  | crcByte => exact .inl ⟨_, exec_crcByte_outside (Nat.le_of_not_lt h)⟩
  | banner | cycleStart | collectEnd | crcInit | reportNodata | crcFinal | reportUpdated => exact absurd trivial h

/-- Where it finds what it needs, an operation is stuck or is performed whole, as the environment withholds or grants. -/
theorem exec_of_ready {i : Instr} {s : State} (h : Ready i s) :
    (waits i = true ∧ s.env.grant = false ∧ exec i s = .refused .stuck) ∨
      ((waits i = true → s.env.grant = true) ∧ exec i s = .next (after i s)) := by
  cases hi : waits i with
  | false => exact .inr ⟨fun hfalse => absurd hfalse Bool.false_ne_true, exec_at_once hi h⟩
  | true =>
    cases hgrant : s.env.grant with
    | false => exact .inl ⟨rfl, rfl, exec_withheld hi h hgrant⟩
    | true => exact .inr ⟨fun _ => rfl, exec_granted h hgrant⟩

/-- An operation that answers a next state found what it needs and was granted its wait. -/
theorem exec_next {i : Instr} {s t : State} (h : exec i s = .next t) :
    Ready i s ∧ (waits i = true → s.env.grant = true) ∧ t = after i s := by
  by_cases hready : Ready i s
  · obtain ⟨-, -, hexec⟩ | ⟨hgrant, hexec⟩ := exec_of_ready hready
    · cases hexec.symm.trans h
    · exact ⟨hready, hgrant, Host.Outcome.next.inj (h.symm.trans hexec)⟩
  · obtain ⟨f, hf⟩ | ⟨r, hr, -⟩ := exec_not_ready hready
    · cases hf.symm.trans h
    · cases hr.symm.trans h

theorem exec_stuck_iff (i : Instr) (s : State) :
    exec i s = .refused .stuck ↔ s.env.grant = false ∧ waits i = true ∧ Ready i s := by
  refine ⟨fun h => ?_, fun ⟨hgrant, hi, hready⟩ => exec_withheld hi hready hgrant⟩
  by_cases hready : Ready i s
  · obtain ⟨hi, hgrant, -⟩ | ⟨-, hexec⟩ := exec_of_ready hready
    · exact ⟨hgrant, hi, hready⟩
    · cases hexec.symm.trans h
  · obtain ⟨f, hf⟩ | ⟨r, hr, hne⟩ := exec_not_ready hready
    · cases hf.symm.trans h
    · exact absurd (Host.Outcome.refused.inj (hr.symm.trans h)) hne

/-! ### What an operation leaves unchanged -/

theorem after_crc_idx {i : Instr} (h : i ≠ .crcInit) (h' : i ≠ .crcByte) (s : State) :
    (after i s).crc = s.crc ∧ (after i s).idx = s.idx := by
  cases i with
  | crcInit => exact absurd rfl h
  | crcByte => exact absurd rfl h'
  | _ => exact ⟨rfl, rfl⟩

theorem after_lastCrc {i : Instr} (h : i ≠ .crcFinal) (s : State) : (after i s).lastCrc = s.lastCrc := by
  cases i with
  | crcFinal => exact absurd rfl h
  | _ => rfl

theorem after_len {i : Instr} (h : i ≠ .cycleStart) (h' : i ≠ .rxByte) (s : State) : (after i s).len = s.len := by
  cases i with
  | cycleStart => exact absurd rfl h
  | rxByte => exact absurd rfl h'
  | _ => rfl

theorem after_idle {i : Instr} (h : i ≠ .cycleStart) (h' : i ≠ .rxByte) (h'' : i ≠ .idleTick) (s : State) :
    (after i s).idle = s.idle := by
  cases i with
  | cycleStart => exact absurd rfl h
  | rxByte => exact absurd rfl h'
  | idleTick => exact absurd rfl h''
  | _ => rfl

/-- Only `RX_BYTE` takes from the queue or writes the frame buffer. -/
theorem after_frame_rxQueue {i : Instr} (h : i ≠ .rxByte) (s : State) :
    (after i s).frame = s.frame ∧ (after i s).env.rxQueue = s.env.rxQueue := by
  cases i with
  | rxByte => exact absurd rfl h
  | _ => exact ⟨rfl, rfl⟩

/-- What no operation writes: the grant, the moves ahead and the model's counters. -/
theorem after_environment (i : Instr) (s : State) :
    (after i s).env.grant = s.env.grant ∧ (after i s).env.script = s.env.script ∧
      (after i s).env.moves = s.env.moves ∧ (after i s).env.resets = s.env.resets := by
  cases i <;> exact ⟨rfl, rfl, rfl, rfl⟩

theorem cell_after {i : Instr} {s : State} {a : Nat} (h : ¬ (i = .rxByte ∧ a = s.len.toNat)) :
    cell (after i s) a = cell s a := by
  by_cases hi : i = .rxByte
  · subst hi
    exact cell_byteStored_other s _ fun ha => h ⟨rfl, ha⟩
  · obtain ⟨hframe, -⟩ := after_frame_rxQueue hi s
    obtain ⟨-, -, -, hresets⟩ := after_environment i s
    exact cell_congr hframe hresets a

theorem after_time {i : Instr} (h : i ≠ .idleTick) (s : State) : (after i s).env.time = s.env.time := by
  cases i with
  | idleTick => exact absurd rfl h
  | _ => rfl

theorem after_tx {i : Instr} (s : State) : (after i s).env.tx = s.env.tx ++ messageOf i s := by
  cases i with
  | banner | cycleStart | reportNodata | reportUpdated => rfl
  | rxByte | idleTick | collectEnd | crcInit | crcByte | crcFinal => exact (List.append_nil s.env.tx).symm

theorem messageOf_of_not_sends {i : Instr} (h : sends i = false) (s : State) : messageOf i s = [] := by
  cases i with
  | banner | cycleStart | reportNodata | reportUpdated => cases h
  | rxByte | idleTick | collectEnd | crcInit | crcByte | crcFinal => rfl

theorem after_res {i : Instr} (h : i ≠ .reportNodata) (h' : i ≠ .reportUpdated) (s : State) :
    (after i s).env.res = s.env.res := by
  cases i with
  | reportNodata => exact absurd rfl h
  | reportUpdated => exact absurd rfl h'
  | _ => rfl

/-- Settles O43: a next state is the state after the operation, and each frame rule is one of the lemmas above. -/
theorem operationFrames : Obligations.OperationFrames := by
  intro i s t h
  obtain ⟨-, -, rfl⟩ := exec_next h
  refine ⟨fun h h' => after_crc_idx h h' s, fun h => after_lastCrc h s, fun h h' => after_len h h' s,
    fun h h' h'' => after_idle h h' h'' s, fun a => cell_after, fun h => after_frame_rxQueue h s,
    fun h => after_time h s, fun h => ?_, fun h h' => after_res h h' s, after_environment i s⟩
  rw [after_tx, messageOf_of_not_sends h, List.append_nil]

end Sys2Proof.Machine
end

section
/-! PROOFS. The step where the invariant holds: the operation it takes, and that it is performed or waited in
(60_exceptions.md R233, R235). -/

namespace Sys2Proof.Machine

/-! ### The operation whose turn it is -/

theorem after_phase (i : Instr) (s : State) : (after i s).phase = phaseAfter i := by
  cases i <;> rfl

/-- What the rows of 30_encoding.md R92 ask of a state beside the phase; of the queue what the one poll of the operation
found, which for an `IDLE_TICK` in its sleep is past (log 22). -/
def Conditions (i : Instr) (s : State) : Prop :=
  match i with
  | .rxByte => cRun s = true ∧ s.env.rxQueue ≠ []
  | .idleTick => cRun s = true ∧ (s.env.pending = some .idleTick ∨ s.env.rxQueue = [])
  | .collectEnd => cRun s = false
  | .crcInit => 0 < s.len.toNat
  | .reportNodata => s.len.toNat = 0
  | .crcByte => s.idx.toNat < s.len.toNat
  | .crcFinal => ¬ s.idx.toNat < s.len.toNat
  | .banner | .cycleStart | .reportUpdated => True

/-- The operation's turn: the table selects it, or the block waits in it. -/
structure Turn (i : Instr) (s : State) : Prop where
  phase : s.phase = phaseOf i
  conditions : Conditions i s
  pending : s.env.pending = none ∨ s.env.pending = some i ∧ waits i = true

/-- With nothing outstanding, where each operation is selected. -/
theorem selected_free_iff {s : State} (hp : s.env.pending = none) (i : Instr) :
    selected s = .ok i ↔ s.phase = phaseOf i ∧ Conditions i s := by
  cases i with
  | banner => exact ⟨fun h => ⟨selected_phase hp h, trivial⟩, fun h => selected_boot hp h.1⟩
  | cycleStart => exact ⟨fun h => ⟨selected_phase hp h, trivial⟩, fun h => selected_idle hp h.1⟩
  | rxByte => exact selected_rxByte_iff hp
  | idleTick => simpa [Conditions, hp, phaseOf] using selected_idleTick_iff hp
  | collectEnd => exact selected_collectEnd_iff hp
  | crcInit => exact selected_crcInit_iff hp
  | reportNodata => exact selected_reportNodata_iff hp
  | crcByte => exact selected_crcByte_iff hp
  | crcFinal => exact selected_crcFinal_iff hp
  | reportUpdated => exact ⟨fun h => ⟨selected_phase hp h, trivial⟩, fun h => selected_report hp h.1⟩

/-- The block waits only in an operation that waits, and only where it is that operation's turn. -/
theorem waitsIn_iff {i : Instr} {s : State} (hp : s.env.pending = some i) :
    waitsIn i s = true ↔ waits i = true ∧ s.phase = phaseOf i ∧ Conditions i s := by
  cases i with
  | banner | cycleStart | reportUpdated => simp [waitsIn, waits, sends, phaseOf, Conditions]
  | idleTick => simp [waitsIn, waits, phaseOf, Conditions, hp]
  | reportNodata => simp [waitsIn, waits, sends, phaseOf, Conditions, cNonempty]
  | rxByte | collectEnd | crcInit | crcByte | crcFinal => simp [waitsIn, waits, sends]

theorem Inv.exists_selected {s : State} (h : Inv s) : ∃ i, selected s = .ok i := by
  cases hp : s.env.pending with
  | none =>
    rw [selected_free hp]
    exact opOfFields_total (f := selFields s) h.phaseLegal
  | some i => exact ⟨i, selected_pending hp h.phaseLegal⟩

/-- Under the invariant the operation of a step is the one whose turn it is, also inside a wait. -/
theorem Inv.turn {s : State} {i : Instr} (h : Inv s) (hsel : selected s = .ok i) : Turn i s := by
  cases hp : s.env.pending with
  | none =>
    obtain ⟨hphase, hcond⟩ := (selected_free_iff hp i).mp hsel
    exact ⟨hphase, hcond, .inl hp⟩
  | some j =>
    obtain rfl : j = i := Except.ok.inj ((selected_pending hp h.phaseLegal).symm.trans hsel)
    obtain ⟨hwaits, hphase, hcond⟩ := (waitsIn_iff hp).mp (h.pendingSelected j hp)
    exact ⟨hphase, hcond, .inr ⟨hp, hwaits⟩⟩

theorem Turn.ready {i : Instr} {s : State} (h : Turn i s) (hinv : Inv s) : Ready i s := by
  have hcond := h.conditions
  cases i with
  | rxByte => exact ⟨hcond.2, ((cRun_eq_true s).mp hcond.1).2⟩
  | idleTick => exact hcond.2
  | crcByte => exact Nat.lt_of_lt_of_le hcond hinv.lenRange
  | banner | cycleStart | collectEnd | crcInit | reportNodata | crcFinal | reportUpdated => trivial

/-- No request is outstanding after an operation whose turn it was. -/
theorem Turn.after_pending {i : Instr} {s : State} (h : Turn i s) : (after i s).env.pending = none := by
  cases hi : waits i with
  | true => exact Machine.after_pending hi s
  | false =>
    rw [after_pending_kept hi]
    exact h.pending.resolve_right fun hp => absurd (hi.symm.trans hp.2) Bool.false_ne_true

/-! ### The step -/

/-- The environment's move touches nothing that the invariant speaks of. -/
theorem Inv.envMoved {s : State} (h : Inv s) : Inv (envMoved s) := by
  obtain ⟨h1, h2, h3, h4, h5, h6, h7, h8, h9, h10, h11⟩ := h
  exact ⟨h1, h2, h3, h4, h5, h6, h7, h8, h9, h10, h11⟩

/-- What a turn comes to: the operation waits, or is performed whole. -/
def turnTaken (i : Instr) (s : State) : State :=
  if waits i = true ∧ s.env.grant = false then waiting i s else after i s

theorem turnTaken_cases (i : Instr) (s : State) :
    (waits i = true ∧ s.env.grant = false ∧ turnTaken i s = waiting i s) ∨
      ((waits i = true → s.env.grant = true) ∧ turnTaken i s = after i s) := by
  by_cases h : waits i = true ∧ s.env.grant = false
  · exact .inl ⟨h.1, h.2, if_pos h⟩
  · exact .inr ⟨by simpa using h, if_neg h⟩

theorem step_reset {s : State} {p : Nat} (hr : (nextMove s).rst = some p) :
    step s = .next (resetEvent (envMoved s) p) := by
  rw [step, hr]
  rfl

/-- Without a reset the machine's step is the turn of the operation selected, where it finds what it needs. -/
theorem step_of_ready {s : State} {i : Instr} (hr : (nextMove s).rst = none) (hsel : selected (envMoved s) = .ok i)
    (h : Ready i (envMoved s)) : step s = .next (turnTaken i (envMoved s)) := by
  have hblock := blockStep_of_selected hsel
  obtain ⟨hi, hgrant, hexec⟩ | ⟨hgrant, hexec⟩ := exec_of_ready h
  · rw [step_of_stuck hr (hblock.trans hexec), stuckIn_of_selected hsel, turnTaken, if_pos ⟨hi, hgrant⟩]
  · rw [step_of_exec hr hsel hexec, turnTaken, if_neg fun hw => Bool.false_ne_true (hw.2.symm.trans (hgrant hw.1))]

/-- A step where the invariant holds: the reset event, or an operation whose turn it is. -/
theorem Inv.step_eq {s : State} (h : Inv s) :
    (∃ p, (nextMove s).rst = some p ∧ step s = .next (resetEvent (Machine.envMoved s) p)) ∨
      ((nextMove s).rst = none ∧ ∃ i, selected (Machine.envMoved s) = .ok i ∧ Turn i (Machine.envMoved s) ∧
        step s = .next (turnTaken i (Machine.envMoved s))) := by
  cases hr : (nextMove s).rst with
  | some p => exact .inl ⟨p, rfl, step_reset hr⟩
  | none =>
    obtain ⟨i, hsel⟩ := h.envMoved.exists_selected
    have hturn := h.envMoved.turn hsel
    exact .inr ⟨rfl, i, hsel, hturn, step_of_ready hr hsel (hturn.ready h.envMoved)⟩

/-- All that a step can do where the invariant holds: each invariant of the development is proved by these three cases. -/
theorem Inv.step_cases {s t : State} (h : Inv s) (hstep : step s = .next t) :
    (∃ p, (nextMove s).rst = some p ∧ t = resetEvent (Machine.envMoved s) p) ∨
      ((nextMove s).rst = none ∧ ∃ i, selected (Machine.envMoved s) = .ok i ∧ Turn i (Machine.envMoved s) ∧
        (t = after i (Machine.envMoved s) ∨ waits i = true ∧ t = waiting i (Machine.envMoved s))) := by
  obtain ⟨p, hr, heq⟩ | ⟨hr, i, hsel, hturn, heq⟩ := h.step_eq
  · exact .inl ⟨p, hr, Host.Outcome.next.inj (hstep.symm.trans heq)⟩
  · have ht : t = turnTaken i (Machine.envMoved s) := Host.Outcome.next.inj (hstep.symm.trans heq)
    refine .inr ⟨hr, i, hsel, hturn, ?_⟩
    obtain ⟨hi, -, hw⟩ | ⟨-, hd⟩ := turnTaken_cases i (Machine.envMoved s)
    · exact .inr ⟨hi, ht.trans hw⟩
    · exact .inl (ht.trans hd)

end Sys2Proof.Machine
end

section
/-! PROOFS. What the turn of an operation says at once: the accesses, the phase graph, the collector's states, the poll
and the word of a trace line. -/

namespace Sys2Proof

/-- Each row of the table is that of its operation's encoding. -/
theorem opTable_row_of_op : ∀ r ∈ opTable, r.mask = r.op.mask ∧ r.pattern = encode r.op := by decide

/-- A word that decodes to an operation has the bits that the operation's row fixes. -/
theorem mask_of_decodeSel {w : SelWord} {i : Instr} (h : decodeSel w = .ok i) : w &&& i.mask = encode i := by
  obtain ⟨r, hr, rfl, hrw⟩ := (decodeSel_ok_iff w i).mp h
  obtain ⟨hmask, hpattern⟩ := opTable_row_of_op r hr
  rw [← hmask, ← hpattern, ← OpRow.matches_iff]
  exact hrw

end Sys2Proof

namespace Sys2Proof.Machine

/-! ### The accesses and the counters -/

/-- Settles O53: each clause is the condition of the operation's turn, and `len` is at most 4096. -/
theorem accessesInsideAndNoWrap : Obligations.AccessesInsideAndNoWrap := by
  intro s i hinv hsel
  have hcond := (hinv.turn hsel).conditions
  refine ⟨?_, ?_, ?_⟩
  · rintro rfl
    obtain ⟨-, hlen⟩ := (cRun_eq_true s).mp hcond.1
    exact ⟨hlen, toNat_add_one_of_lt hlen⟩
  · rintro rfl
    have hidx : s.idx.toNat < Config.maxDataLen := Nat.lt_of_lt_of_le hcond hinv.lenRange
    exact ⟨hcond, hidx, toNat_add_one_of_lt hidx⟩
  · rintro rfl
    obtain ⟨hidle, -⟩ := (cRun_eq_true s).mp hcond.1
    exact ⟨hidle, idle_add_one_toNat hidle⟩

/-! ### The phases -/

/-- The edges of 42_sequencer_report.md R190 are those of the ten operations. -/
theorem phase_edge (i : Instr) :
    (phaseOf i, phaseAfter i) ∈ [(Phase.boot, Phase.idle), (Phase.idle, Phase.collect), (Phase.collect, Phase.collect),
      (Phase.collect, Phase.done), (Phase.done, Phase.crc), (Phase.done, Phase.idle), (Phase.crc, Phase.crc),
      (Phase.crc, Phase.report), (Phase.report, Phase.idle)] := by
  cases i <;> decide

/-- Settles O41: an operation waits in its phase, or leads along its edge. -/
theorem phaseGraph : Obligations.PhaseGraph := by
  intro s t hinv hr hstep
  obtain ⟨p, hp, -⟩ | ⟨-, i, -, hturn, rfl | ⟨-, rfl⟩⟩ := hinv.step_cases hstep
  · cases hr.symm.trans hp
  · have hphase : s.phase = phaseOf i := hturn.phase
    rw [hphase, after_phase]
    exact .inr (phase_edge i)
  · exact .inl ⟨Option.some_ne_none i, rfl⟩

/-- Settles O33: the collector's states in the phase of the operation and in the phase it writes. -/
theorem collectorTransitions : Obligations.CollectorTransitions := by
  intro s t i hinv hr hsel hstep hpending
  obtain ⟨p, hp, -⟩ | ⟨-, j, hj, hturn, rfl | ⟨-, rfl⟩⟩ := hinv.step_cases hstep
  · cases hr.symm.trans hp
  · obtain rfl : j = i := Except.ok.inj (hj.symm.trans hsel)
    have hphase : s.phase = phaseOf j := hturn.phase
    rw [hphase, after_phase]
    cases j <;> decide
  · cases hpending

/-- Settles O44: the one operation that takes a byte or writes `FRAME` has its turn in phase `COLLECT`. -/
theorem noPollOutsideCollect : Obligations.NoPollOutsideCollect := by
  intro s t hinv hr hcollect hstep
  obtain ⟨p, hp, -⟩ | ⟨-, i, -, hturn, rfl | ⟨-, rfl⟩⟩ := hinv.step_cases hstep
  · cases hr.symm.trans hp
  · have hne : i ≠ .rxByte := by
      rintro rfl
      exact hcollect hturn.phase
    exact after_frame_rxQueue hne (envMoved s)
  · exact ⟨rfl, rfl⟩

/-! ### The word of a trace line -/

theorem pollMade_of_pending {s : State} (h : s.env.pending ≠ none) : pollMade s = false := by
  rw [← Bool.not_eq_true, pollMade_eq_true]
  exact fun hpoll => h hpoll.1

theorem cRx_of_pending {s : State} (h : s.env.pending ≠ none) : cRx s = false := by
  rw [cRx, pollMade_of_pending h, Bool.false_and]

/-- Between operations the word is what selects; inside a wait its unread bits and `c_rx` are those of the operation's
row. -/
theorem Turn.decodes {i : Instr} {s : State} (h : Turn i s) : decodeSel (selWord s) = .ok i := by
  obtain ⟨hphase, hcond, hp | ⟨hp, hi⟩⟩ := h
  · rw [← selected_eq_decodeSel hp]
    exact (selected_free_iff hp i).mpr ⟨hphase, hcond⟩
  · have hrx : cRx s = false := cRx_of_pending (hp ▸ Option.some_ne_none i)
    rw [selWord, decodeSel_word]
    cases i with
    | banner | cycleStart | reportUpdated => simp [opOfFields, selFields, hphase, phaseOf]
    | idleTick => simp [opOfFields, selFields, hphase, phaseOf, hcond.1, hrx]
    | reportNodata =>
      have hlen : s.len.toNat = 0 := hcond
      simp [opOfFields, selFields, hphase, phaseOf, cNonempty, hlen]
    | rxByte | collectEnd | crcInit | crcByte | crcFinal => cases hi

/-- Settles O59: inside a wait no poll is made, and the word decodes to the operation whose turn it is. -/
theorem performedWordIsOfItsRow : Obligations.PerformedWordIsOfItsRow := by
  refine ⟨fun s h => ⟨cRx_of_pending h, pollMade_of_pending h⟩, fun s i hinv hperf => ?_⟩
  obtain ⟨-, hsel, -⟩ := performed?_eq_some.mp hperf
  have hdecode := (hinv.envMoved.turn hsel).decodes
  exact ⟨mask_of_decodeSel hdecode, hdecode⟩

end Sys2Proof.Machine
end

section
/-! PROOFS. Every step keeps the invariant of the reachable states (10_state.md R44). -/

namespace Sys2Proof.Machine

/-! ### At reset -/

/-- The invariant asks nothing of `crc`, `last_crc`, nor of the environment but that no request is outstanding. -/
theorem inv_of_reset_registers {s : State} (hlen : s.len = 0#13) (hidle : s.idle = 0#9) (hidx : s.idx = 0#13)
    (hphase : s.phase = Phase.boot) (hframe : s.frame = []) (hp : s.env.pending = none) : Inv s where
  phaseLegal := by rw [hphase]; decide
  lenRange := by rw [hlen]; decide
  idleRange := by rw [hidle]; decide
  idxRange := by rw [hidx]; decide
  idxBelowLen _ := by rw [hidx]; exact Nat.zero_le _
  frameWf := by rw [hframe]; rfl
  frameWritten hlive := by rw [hphase] at hlive; cases hlive
  fullThenFresh _ := by rw [hidle]; rfl
  endedHow hyield := by rw [hphase] at hyield; cases hyield
  passNonempty hpass := by rw [hphase] at hpass; exact absurd hpass (by decide)
  pendingSelected i hi := by rw [hp] at hi; cases hi

/-- Settles O50. -/
theorem invAtReset : Obligations.InvAtReset := inv_of_reset_registers rfl rfl rfl rfl rfl rfl

/-! ### In a wait -/

theorem Turn.inv_waiting {i : Instr} {s : State} (h : Turn i s) (hi : waits i = true) (hinv : Inv s) :
    Inv (waiting i s) := by
  obtain ⟨h1, h2, h3, h4, h5, h6, h7, h8, h9, h10, -⟩ := hinv
  refine ⟨h1, h2, h3, h4, h5, h6, h7, h8, h9, h10, fun j hj => ?_⟩
  obtain rfl : i = j := Option.some.inj hj
  refine (waitsIn_iff hj).mpr ⟨hi, h.phase, ?_⟩
  have hcond := h.conditions
  cases i with
  | idleTick => exact ⟨hcond.1, .inl rfl⟩
  | banner | cycleStart | reportNodata | reportUpdated => exact hcond
  | rxByte | collectEnd | crcInit | crcByte | crcFinal => cases hi

/-! ### After an operation, clause by clause -/

section
variable {i : Instr} {s : State} (hinv : Inv s) (hturn : Turn i s)
include hinv hturn

theorem Turn.lenRange_after : (after i s).len.toNat ≤ Config.maxDataLen := by
  have hcond := hturn.conditions
  cases i with
  | cycleStart => exact Nat.zero_le _
  | rxByte =>
    obtain ⟨-, hlen⟩ := (cRun_eq_true s).mp hcond.1
    exact (toNat_add_one_of_lt hlen).trans_le hlen
  | _ => exact hinv.lenRange

theorem Turn.idleRange_after : (after i s).idle.toNat ≤ Config.idleThreshold := by
  have hcond := hturn.conditions
  cases i with
  | cycleStart | rxByte => exact Nat.zero_le _
  | idleTick =>
    obtain ⟨hidle, -⟩ := (cRun_eq_true s).mp hcond.1
    exact (idle_add_one_toNat hidle).trans_le hidle
  | _ => exact hinv.idleRange

/-- A byte of the pass leaves `idx` at most `len`, as `CRC_INIT` and `CRC_FINAL` do. -/
theorem Turn.idxBelowLen_after (hphase : phaseAfter i = Phase.crc ∨ phaseAfter i = Phase.report) :
    (after i s).idx.toNat ≤ (after i s).len.toNat := by
  have hcond := hturn.conditions
  cases i with
  | crcInit => exact Nat.zero_le _
  | crcByte =>
    have hidx : s.idx.toNat < s.len.toNat := hcond
    exact (toNat_add_one_of_lt (hidx.trans_le hinv.lenRange)).trans_le hidx
  | crcFinal => exact hinv.idxBelowLen (.inl hturn.phase)
  | _ => exact absurd hphase (by decide)

theorem Turn.idxRange_after : (after i s).idx.toNat ≤ Config.maxDataLen := by
  by_cases hi : i = .crcInit ∨ i = .crcByte
  · have hphase : phaseAfter i = Phase.crc := by rcases hi with rfl | rfl <;> rfl
    exact (hturn.idxBelowLen_after hinv (.inl hphase)).trans (hturn.lenRange_after hinv)
  · obtain ⟨hinit, hbyte⟩ := not_or.mp hi
    obtain ⟨-, hidx⟩ := after_crc_idx hinit hbyte s
    rw [hidx]
    exact hinv.idxRange

theorem Turn.frameWf_after : (after i s).frame.wf = true := by
  have hcond := hturn.conditions
  cases i with
  | rxByte => exact Memory.wf_write _ hinv.frameWf ((cRun_eq_true s).mp hcond.1).2
  | _ => exact hinv.frameWf

/-- The byte taken is stored at the old `len`, so that the cells below the new one are written. -/
theorem Turn.frameWritten_after (hlive : frameLive (phaseAfter i) = true) {a : Nat}
    (ha : a < (after i s).len.toNat) : ((after i s).frame.read? a).isSome = true := by
  have hcond := hturn.conditions
  have hkept : frameLive (phaseOf i) = true → a < s.len.toNat → (s.frame.read? a).isSome = true := fun h =>
    hinv.frameWritten (hturn.phase ▸ h) a
  cases i with
  | cycleStart => exact absurd ha (Nat.not_lt_zero a)
  | rxByte =>
    have hlen : (after .rxByte s).len.toNat = s.len.toNat + 1 :=
      toNat_add_one_of_lt ((cRun_eq_true s).mp hcond.1).2
    by_cases hlast : a = s.len.toNat
    · subst hlast
      exact Option.isSome_of_eq_some (Memory.read?_write_same s.frame s.len.toNat _)
    · exact (congrArg Option.isSome (Memory.read?_write_other s.frame _ a _ hlast)).trans (hkept rfl (by omega))
  | idleTick | collectEnd | crcInit | crcByte | crcFinal => exact hkept rfl ha
  | banner | reportNodata | reportUpdated => cases hlive

theorem Turn.fullThenFresh_after (hfull : (after i s).len.toNat = Config.maxDataLen) :
    (after i s).idle.toNat = 0 := by
  have hcond := hturn.conditions
  cases i with
  | cycleStart | rxByte => rfl
  | idleTick =>
    obtain ⟨-, hlen⟩ := (cRun_eq_true s).mp hcond.1
    exact absurd hfull hlen.ne
  | _ => exact hinv.fullThenFresh hfull

theorem Turn.endedHow_after (hyield : frameYielded (phaseAfter i) = true) :
    (after i s).idle.toNat = Config.idleThreshold ∨ (after i s).len.toNat = Config.maxDataLen := by
  have hcond := hturn.conditions
  have hkept : frameYielded (phaseOf i) = true →
      s.idle.toNat = Config.idleThreshold ∨ s.len.toNat = Config.maxDataLen := fun h =>
    hinv.endedHow (hturn.phase ▸ h)
  cases i with
  | collectEnd =>
    rcases hinv.one_reason_to_end hcond with ⟨hidle, -⟩ | ⟨hlen, -⟩
    · exact .inl hidle
    · exact .inr hlen
  | crcInit | crcByte | crcFinal => exact hkept rfl
  | _ => cases hyield

theorem Turn.passNonempty_after (hphase : phaseAfter i = Phase.crc ∨ phaseAfter i = Phase.report) :
    0 < (after i s).len.toNat := by
  have hcond := hturn.conditions
  cases i with
  | crcInit => exact hcond
  | crcByte | crcFinal => exact hinv.passNonempty (.inl hturn.phase)
  | _ => exact absurd hphase (by decide)

theorem Turn.inv_after : Inv (after i s) where
  phaseLegal := (after_phase i s).symm ▸ phaseAfter_legal i
  lenRange := hturn.lenRange_after hinv
  idleRange := hturn.idleRange_after hinv
  idxRange := hturn.idxRange_after hinv
  idxBelowLen h := hturn.idxBelowLen_after hinv (after_phase i s ▸ h)
  frameWf := hturn.frameWf_after hinv
  frameWritten h _ := hturn.frameWritten_after hinv (after_phase i s ▸ h)
  fullThenFresh := hturn.fullThenFresh_after hinv
  endedHow h := hturn.endedHow_after hinv (after_phase i s ▸ h)
  passNonempty h := hturn.passNonempty_after hinv (after_phase i s ▸ h)
  pendingSelected j hj := by
    rw [hturn.after_pending] at hj
    cases hj

end

/-! ### Every step, and every run -/

theorem step_keeps_inv {s t : State} (hinv : Inv s) (hstep : step s = .next t) : Inv t := by
  obtain ⟨p, -, rfl⟩ | ⟨-, i, -, hturn, rfl | ⟨hi, rfl⟩⟩ := hinv.step_cases hstep
  · exact inv_of_reset_registers rfl rfl rfl rfl rfl rfl
  · exact hturn.inv_after hinv.envMoved
  · exact hturn.inv_waiting hi hinv.envMoved

/-- Settles O51: the reset event gives the registers of reset, and a turn keeps every clause. -/
theorem stepKeepsInv : Obligations.StepKeepsInv := fun _ _ => step_keeps_inv

theorem Inv.step_next {s : State} (hinv : Inv s) : ∃ t, step s = .next t := by
  obtain ⟨p, -, heq⟩ | ⟨-, i, -, -, heq⟩ := hinv.step_eq
  · exact ⟨_, heq⟩
  · exact ⟨_, heq⟩

theorem Inv.run_next {s : State} (hinv : Inv s) (n : Nat) : ∃ t, run n s = .next t ∧ Inv t := by
  induction n generalizing s with
  | zero => exact ⟨s, rfl, hinv⟩
  | succ n ih =>
    obtain ⟨u, hu⟩ := hinv.step_next
    obtain ⟨t, ht, hinv'⟩ := ih (step_keeps_inv hinv hu)
    exact ⟨t, (run_succ hu n).trans ht, hinv'⟩

theorem Inv.blockStep_next_or_stuck {s : State} (hinv : Inv s) :
    (∃ t, blockStep s = .next t) ∨ blockStep s = .refused .stuck := by
  obtain ⟨i, hsel⟩ := hinv.exists_selected
  rw [blockStep_of_selected hsel]
  obtain ⟨-, -, hexec⟩ | ⟨-, hexec⟩ := exec_of_ready ((hinv.turn hsel).ready hinv)
  · exact .inr hexec
  · exact .inl ⟨_, hexec⟩

/-- Settles O52: the operation whose turn it is finds what it needs, and the next state has the invariant again. -/
theorem noFaultWhereInv : Obligations.NoFaultWhereInv := fun _ hinv =>
  ⟨hinv.envMoved.blockStep_next_or_stuck, hinv.step_next, hinv.run_next⟩

end Sys2Proof.Machine
end

section
/-! PROOFS. The CRC pass, the outputs and the held checksum as invariants of every step (40_crc32_engine.md R141,
42_sequencer_report.md R195 to R197). -/

namespace Sys2Proof.Machine

/-! ### The CRC pass -/

/-- In phase `BOOT` nothing is asked. -/
theorem passInv_of_boot {s : State} (h : s.phase = Phase.boot) : PassInv s :=
  ⟨fun hcrc => absurd (h.symm.trans hcrc) (by decide), fun hreport => absurd (h.symm.trans hreport) (by decide)⟩

theorem PassInv.envMoved {s : State} (h : PassInv s) : PassInv (envMoved s) := ⟨h.register, h.result⟩

theorem PassInv.waiting {s : State} (h : PassInv s) (i : Instr) : PassInv (waiting i s) := ⟨h.register, h.result⟩

section
variable {i : Instr} {s : State} (hinv : Inv s) (hpass : PassInv s) (hturn : Turn i s)
include hinv hpass hturn

/-- `CRC_INIT` begins with no byte consumed, and a `CRC_BYTE` consumes the one at `idx`. -/
theorem PassInv.register_after (hphase : phaseAfter i = Phase.crc) :
    (after i s).crc = crcRegister Config.initCrc ((frameBytes (after i s)).take (after i s).idx.toNat) := by
  cases i with
  | crcInit => rfl
  | crcByte =>
    have hmore : s.idx.toNat < s.len.toNat := hturn.conditions
    have hidx : (after .crcByte s).idx.toNat = s.idx.toNat + 1 :=
      toNat_add_one_of_lt (hmore.trans_le hinv.lenRange)
    have hframe : frameBytes (after .crcByte s) = frameBytes s := rfl
    rw [hidx, hframe, crcRegister_take_succ _ s hmore, ← hpass.register hturn.phase]
    rfl
  | _ => exact absurd hphase (by decide)

/-- `CRC_FINAL` has the whole frame consumed. -/
theorem PassInv.result_after (hphase : phaseAfter i = Phase.report) :
    (after i s).idx = (after i s).len ∧ (after i s).lastCrc = compute (frameBytes (after i s)) := by
  cases i with
  | crcFinal =>
    have hidx : s.idx = s.len := hinv.idx_eq_len hturn.phase hturn.conditions
    have hregister := hpass.register hturn.phase
    rw [hidx, List.take_of_length_le (frameBytes_length s).le] at hregister
    exact ⟨hidx, congrArg crcResult hregister⟩
  | _ => exact absurd hphase (by decide)

theorem PassInv.after : PassInv (after i s) :=
  ⟨fun h => hpass.register_after hinv hturn (after_phase i s ▸ h),
    fun h => hpass.result_after hinv hturn (after_phase i s ▸ h)⟩

end

/-- Settles O55: after a reset nothing is asked, a wait changes nothing the pass speaks of, and the operations of the pass
keep it. -/
theorem stepKeepsPassInv : Obligations.StepKeepsPassInv := by
  intro s t hinv hpass hstep
  obtain ⟨p, -, rfl⟩ | ⟨-, i, -, hturn, rfl | ⟨-, rfl⟩⟩ := hinv.step_cases hstep
  · exact passInv_of_boot rfl
  · exact hpass.envMoved.after hinv.envMoved hturn
  · exact hpass.envMoved.waiting i

/-! ### The outputs -/

/-- A cycle begins with its prompt. -/
theorem expectedTx_start {p : PhaseBits} (hp : p ≠ Phase.idle) (res : List ResRecord) :
    expectedTx p res = expectedTx Phase.idle res ++ readyMsg := by
  rw [expectedTx, if_neg hp, expectedTx, if_pos rfl, List.append_nil]

/-- A cycle ends with its report, whose prompt has been sent. -/
theorem expectedTx_report {p : PhaseBits} (hp : p ≠ Phase.idle) (res : List ResRecord) (r : ResRecord) :
    expectedTx Phase.idle (res ++ [r]) = expectedTx p res ++ reportMsg r := by
  rw [expectedTx, if_pos rfl, expectedTx, if_neg hp]
  simp only [List.flatMap_append, List.flatMap_singleton, List.append_assoc, List.append_nil]

theorem OutputInv.envMoved {s : State} (h : OutputInv s) : OutputInv (envMoved s) := ⟨h.atBoot, h.afterBoot⟩

theorem OutputInv.waiting {s : State} (h : OutputInv s) (i : Instr) : OutputInv (waiting i s) :=
  ⟨h.atBoot, h.afterBoot⟩

theorem phaseAfter_ne_boot (i : Instr) : phaseAfter i ≠ Phase.boot := by
  cases i <;> decide

/-- What an operation sends is what the outputs have more in the phase it leads to. -/
theorem OutputInv.tx_after {i : Instr} {s : State} (h : OutputInv s) (hphase : s.phase = phaseOf i) :
    (after i s).env.tx = expectedTx (phaseAfter i) (after i s).env.res := by
  have htx : phaseOf i ≠ Phase.boot → s.env.tx = expectedTx (phaseOf i) s.env.res := fun hboot =>
    hphase ▸ h.afterBoot (hphase ▸ hboot)
  rw [after_tx]
  cases i with
  | banner =>
    obtain ⟨htx, hres⟩ := h.atBoot hphase
    have hkept : (after .banner s).env.res = s.env.res := rfl
    rw [htx, hkept, hres]
    rfl
  | cycleStart =>
    rw [htx (by decide)]
    exact (expectedTx_start (p := Phase.collect) (by decide) s.env.res).symm
  | reportNodata =>
    rw [htx (by decide)]
    exact (expectedTx_report (p := Phase.done) (by decide) s.env.res ⟨false, s.lastCrc⟩).symm
  | reportUpdated =>
    rw [htx (by decide)]
    exact (expectedTx_report (p := Phase.report) (by decide) s.env.res ⟨true, s.lastCrc⟩).symm
  | rxByte | idleTick | collectEnd | crcInit | crcByte | crcFinal =>
    rw [htx (by decide), messageOf_of_not_sends rfl, List.append_nil]
    rfl

/-- Settles O56: a wait sends nothing, and an operation sends what its edge of the phase graph adds. -/
theorem stepKeepsOutputShape : Obligations.StepKeepsOutputShape := by
  intro s t hinv hout hr hstep
  obtain ⟨p, hp, -⟩ | ⟨-, i, -, hturn, rfl | ⟨-, rfl⟩⟩ := hinv.step_cases hstep
  · cases hr.symm.trans hp
  · have hphase := after_phase i (envMoved s)
    exact ⟨fun h => absurd (hphase.symm.trans h) (phaseAfter_ne_boot i),
      fun _ => hphase ▸ hout.envMoved.tx_after hturn.phase⟩
  · exact hout.envMoved.waiting i

/-! ### The held checksum -/

/-- The number of the last `REPORT_UPDATED` record beyond the first `before`; the value that `HeldSince` speaks of. -/
def heldValue (before : Nat) (res : List ResRecord) : Word :=
  ((((res.drop before).filter ResRecord.isNew).getLast?).map ResRecord.crc).getD Config.lastCrcReset

theorem heldSince_iff {before : Nat} {s : State} :
    HeldSince before s ↔
      before ≤ s.env.res.length ∧ (s.phase ≠ Phase.report → s.lastCrc = heldValue before s.env.res) :=
  ⟨fun h => ⟨h.kept, h.held⟩, fun h => ⟨h.1, h.2⟩⟩

theorem heldValue_length (res : List ResRecord) : heldValue res.length res = Config.lastCrcReset := by
  rw [heldValue, List.drop_length]
  rfl

theorem heldValue_of_none_new {before : Nat} {res : List ResRecord} (h : ∀ r ∈ res.drop before, r.isNew = false) :
    heldValue before res = Config.lastCrcReset := by
  have hfilter : (res.drop before).filter ResRecord.isNew = [] :=
    List.filter_eq_nil_iff.mpr fun r hr => Bool.eq_false_iff.mp (h r hr)
  rw [heldValue, hfilter]
  rfl

theorem heldValue_concat_new {before : Nat} {res : List ResRecord} (h : before ≤ res.length) (c : Word) :
    heldValue before (res ++ [{ isNew := true, crc := c }]) = c := by
  simp [heldValue, List.drop_append_of_le_length h, List.filter_append]

theorem heldValue_concat_old {before : Nat} {res : List ResRecord} (h : before ≤ res.length) (c : Word) :
    heldValue before (res ++ [{ isNew := false, crc := c }]) = heldValue before res := by
  simp [heldValue, List.drop_append_of_le_length h, List.filter_append]

theorem heldSince_after {before : Nat} {i : Instr} {s : State} (h : HeldSince before s) (hphase : s.phase = phaseOf i) :
    HeldSince before (after i s) := by
  obtain ⟨hkept, hheld⟩ := heldSince_iff.mp h
  have hvalue : phaseOf i ≠ Phase.report → s.lastCrc = heldValue before s.env.res := fun hne => hheld (hphase ▸ hne)
  have hgrown : before ≤ s.env.res.length + 1 := Nat.le_succ_of_le hkept
  refine heldSince_iff.mpr ?_
  cases i with
  | reportUpdated => exact ⟨by simpa [after, reported] using hgrown, fun _ => (heldValue_concat_new hkept _).symm⟩
  | reportNodata =>
    exact ⟨by simpa [after, reported] using hgrown,
      fun _ => (hvalue (by decide)).trans (heldValue_concat_old hkept _).symm⟩
  | crcFinal => exact ⟨hkept, fun hne => absurd rfl hne⟩
  | _ => exact ⟨hkept, fun _ => hvalue (by decide)⟩

/-- Settles O57: only `CRC_FINAL` writes `last_crc`, into the one phase that is left out, and the report that ends that
phase publishes it; the reset event gives the reset value, and what is published by then is before the reset. -/
theorem stepKeepsHeldCrc : Obligations.StepKeepsHeldCrc := by
  refine fun s t hstep => ⟨fun before hinv hheld hr => ?_, fun p hr => ?_⟩
  · have hmoved : HeldSince before (envMoved s) := ⟨hheld.kept, hheld.held⟩
    obtain ⟨p, hp, -⟩ | ⟨-, i, -, hturn, rfl | ⟨-, rfl⟩⟩ := hinv.step_cases hstep
    · cases hr.symm.trans hp
    · exact heldSince_after hmoved hturn.phase
    · exact ⟨hmoved.kept, hmoved.held⟩
  · obtain rfl : t = resetEvent (envMoved s) p := Host.Outcome.next.inj (hstep.symm.trans (step_reset hr))
    exact heldSince_iff.mpr ⟨le_rfl, fun _ => (heldValue_length _).symm⟩

/-- Settles O54: at reset the block is in phase `BOOT`, the streams are empty and `last_crc` has its reset value. -/
theorem outputAndPassInvAtReset : Obligations.OutputAndPassInvAtReset :=
  ⟨⟨fun _ => ⟨rfl, rfl⟩, fun h => absurd rfl h⟩,
    passInv_of_boot rfl,
    ⟨Nat.zero_le _, fun _ => rfl⟩⟩

end Sys2Proof.Machine
end

section
/-! PROOFS. Dead cells of `FRAME` and dead values of `crc` and `idx` reach no output (70_reset_and_hazards.md R260,
10_state.md R21): states alike but for them have steps alike but for them. -/

namespace Sys2Proof.Machine

/-! ### The turn -/

theorem Turn.selected {i : Instr} {s : State} (h : Turn i s) : selected s = .ok i := by
  obtain ⟨hphase, hcond, hp | ⟨hp, -⟩⟩ := h
  · exact (selected_free_iff hp i).mpr ⟨hphase, hcond⟩
  · refine selected_pending hp ?_
    rw [hphase]
    cases i <;> decide

theorem cRun_congr {s t : State} (hlen : s.len = t.len) (hidle : s.idle = t.idle) : cRun s = cRun t := by
  rw [cRun, cRun, hlen, hidle]

section
variable {s t : State} (h : SameVisible s t)
include h

theorem SameVisible.envMoved : SameVisible (envMoved s) (envMoved t) where
  env := by
    have hmove : nextMove s = nextMove t := by rw [nextMove, nextMove, h.env]
    rw [Machine.envMoved, Machine.envMoved, State.setEnv_env, State.setEnv_env, hmove, h.env]
  phase := h.phase
  len := h.len
  idle := h.idle
  lastCrc := h.lastCrc
  frame := h.frame
  pass := h.pass

theorem SameVisible.waiting (i : Instr) : SameVisible (waiting i s) (waiting i t) where
  env := by rw [waiting_env, waiting_env, h.env]
  phase := h.phase
  len := h.len
  idle := h.idle
  lastCrc := h.lastCrc
  frame := h.frame
  pass := h.pass

/-- The row of an operation looks at no dead value: `idx` is compared in phase `CRC` only. -/
theorem SameVisible.turn {i : Instr} (hturn : Turn i s) : Turn i t := by
  obtain ⟨hphase, hcond, hp⟩ := hturn
  have hrun := cRun_congr h.len h.idle
  refine ⟨h.phase ▸ hphase, ?_, h.env ▸ hp⟩
  cases i with
  | rxByte | idleTick => exact ⟨hrun ▸ hcond.1, h.env ▸ hcond.2⟩
  | collectEnd => exact hrun.symm.trans hcond
  | crcInit | reportNodata => simpa only [Conditions, h.len] using hcond
  | crcByte | crcFinal =>
    obtain ⟨-, hidx⟩ := h.pass hphase
    simpa only [Conditions, h.len, hidx] using hcond
  | banner | cycleStart | reportUpdated => trivial

/-! ### The state after an operation -/

theorem SameVisible.env_after (i : Instr) : (after i s).env = (after i t).env := by
  have henv := h.env
  have hlast := h.lastCrc
  cases i <;> simp only [after, bannerSent, cycleStarted, byteStored, ticked, reported, henv, hlast]

theorem SameVisible.len_after (i : Instr) : (after i s).len = (after i t).len := by
  cases i with
  | cycleStart => rfl
  | rxByte => exact congrArg (· + 1#13) h.len
  | _ => exact h.len

theorem SameVisible.idle_after (i : Instr) : (after i s).idle = (after i t).idle := by
  cases i with
  | cycleStart | rxByte => rfl
  | idleTick => exact congrArg (· + 1#9) h.idle
  | _ => exact h.idle

/-- `CRC_FINAL` reads `crc` in phase `CRC`, where it is alive. -/
theorem SameVisible.lastCrc_after {i : Instr} (hturn : Turn i s) : (after i s).lastCrc = (after i t).lastCrc := by
  cases i with
  | crcFinal => exact congrArg crcResult (h.pass hturn.phase).1
  | _ => exact h.lastCrc

/-- The cell that an `RX_BYTE` makes alive holds the byte received. -/
theorem SameVisible.frame_after {i : Instr} (hturn : Turn i s) {a : Nat} (ha : a < (after i s).len.toNat) :
    cell (after i s) a = cell (after i t) a := by
  by_cases hstored : i = .rxByte ∧ a = s.len.toNat
  · obtain ⟨rfl, rfl⟩ := hstored
    have hs : cell (after .rxByte s) s.len.toNat = s.env.rxQueue.headD 0x00#8 := cell_byteStored_same s _
    have ht : cell (after .rxByte t) t.len.toNat = t.env.rxQueue.headD 0x00#8 := cell_byteStored_same t _
    rw [hs, h.env, ← ht, h.len]
  · have hbelow : a < s.len.toNat := by
      cases i with
      | cycleStart => exact absurd ha (Nat.not_lt_zero a)
      | rxByte =>
        have hlen : (after .rxByte s).len.toNat = s.len.toNat + 1 :=
          toNat_add_one_of_lt ((cRun_eq_true s).mp hturn.conditions.1).2
        have hne : a ≠ s.len.toNat := fun hlast => hstored ⟨rfl, hlast⟩
        omega
      | _ => exact ha
    rw [cell_after hstored, cell_after (h.len ▸ hstored), h.frame a hbelow]

theorem SameVisible.pass_after {i : Instr} (hturn : Turn i s) (hphase : phaseAfter i = Phase.crc) :
    (after i s).crc = (after i t).crc ∧ (after i s).idx = (after i t).idx := by
  cases i with
  | crcInit => exact ⟨rfl, rfl⟩
  | crcByte =>
    obtain ⟨hcrc, hidx⟩ := h.pass hturn.phase
    have hcell : cell s s.idx.toNat = cell t s.idx.toNat := h.frame _ hturn.conditions
    rw [hidx] at hcell
    simp only [Machine.after, hcrc, hidx, hcell, and_self]
  | _ => exact absurd hphase (by decide)

theorem SameVisible.after {i : Instr} (hturn : Turn i s) : SameVisible (after i s) (after i t) where
  env := h.env_after i
  phase := (after_phase i s).trans (after_phase i t).symm
  len := h.len_after i
  idle := h.idle_after i
  lastCrc := h.lastCrc_after hturn
  frame _ := h.frame_after hturn
  pass hphase := h.pass_after hturn (after_phase i s ▸ hphase)

theorem SameVisible.turnTaken {i : Instr} (hturn : Turn i s) : SameVisible (turnTaken i s) (turnTaken i t) := by
  rw [Machine.turnTaken, Machine.turnTaken, ← h.env]
  split
  · exact h.waiting i
  · exact h.after hturn

/-! ### The reset event -/

/-- An abandoned operation shows of the state the environment and `last_crc` only. -/
theorem SameVisible.abandoned (i : Instr) (p : Nat) : abandoned i s p = abandoned i t p := by
  have henv := h.env
  have hlast := h.lastCrc
  have hpoll : (rxPoll s).2.env = (rxPoll t).2.env := by
    rw [rxPoll, rxPoll, henv]
    cases t.env.rxQueue with
    | nil => exact henv
    | cons b rest => rfl
  cases i <;> simp only [Machine.abandoned, messageOf, resEmit, sleepOnce, State.setEnv_env, henv, hlast, hpoll]

theorem SameVisible.resetEvent {i : Instr} (hturn : Turn i s) (p : Nat) :
    SameVisible (resetEvent s p) (resetEvent t p) where
  env := by
    rw [Machine.resetEvent, Machine.resetEvent, hturn.selected, (h.turn hturn).selected]
    simp only [h.abandoned]
  phase := rfl
  len := rfl
  idle := rfl
  lastCrc := rfl
  frame a ha := absurd ha (Nat.not_lt_zero a)
  pass hphase := absurd hphase (by decide : Phase.boot ≠ Phase.crc)

end

/-- Settles O58: after the move, which is the same, the same operation has its turn in both states, and the states are
alike after it, in its wait, and after a reset in its midst. -/
theorem deadStateInvisible : Obligations.DeadStateInvisible := by
  intro s t hs ht h
  have hmove : nextMove t = nextMove s := by rw [nextMove, nextMove, h.env]
  obtain ⟨i, hsel⟩ := hs.envMoved.exists_selected
  have hturn := hs.envMoved.turn hsel
  have hturn' := h.envMoved.turn hturn
  cases hr : (nextMove s).rst with
  | some p =>
    rw [step_reset hr, step_reset (hmove ▸ hr)]
    exact h.envMoved.resetEvent hturn p
  | none =>
    rw [step_of_ready hr hsel (hturn.ready hs.envMoved),
      step_of_ready (hmove ▸ hr) hturn'.selected (hturn'.ready ht.envMoved)]
    exact h.envMoved.turnTaken hturn

end Sys2Proof.Machine
end

section
/-! PROOFS. The step for every state: the operation it runs, the wait (60_exceptions.md R233, R235) and the reset event
(70_reset_and_hazards.md R250). -/

namespace Sys2Proof.Machine

/-! ### The operation a step runs -/

theorem selected_of_decode_or_pending {s : State} {i : Instr}
    (h : (s.env.pending = none ∧ decodeSel (selWord s) = .ok i) ∨ (s.env.pending = some i ∧ s.phase.toNat ≤ 5)) :
    selected s = .ok i := by
  rcases h with ⟨hp, hdecode⟩ | ⟨hp, hphase⟩
  · exact (selected_eq_decodeSel hp).trans hdecode
  · exact selected_pending hp hphase

/-- Settles O8: in both cases `i` is the operation selected after the move, and the step is its turn. -/
theorem stepRunsSelectedOperation : Obligations.StepRunsSelectedOperation := by
  refine fun s => ⟨rfl, fun hr i hcase => ?_⟩
  have hsel : selected (envMoved s) = .ok i := selected_of_decode_or_pending (s := envMoved s) hcase
  have hblock := blockStep_of_selected hsel
  refine ⟨hblock, fun hexec => ?_, fun hexec => ?_, ?_⟩
  · rw [step_of_blockStep hr (hblock ▸ hexec), hblock]
  · rw [step_of_stuck hr (hblock.trans hexec), stuckIn_of_selected hsel]
    rfl
  · exact performed?_eq_some.trans ⟨fun h => h.2.2, fun h => ⟨hr, hsel, h⟩⟩

/-! ### The wait -/

theorem selected_of_blockStep_stuck {s : State} (h : blockStep s = .refused .stuck) :
    ∃ i, selected s = .ok i ∧ exec i s = .refused .stuck := by
  cases hsel : selected s with
  | ok i => exact ⟨i, rfl, (blockStep_of_selected hsel).symm.trans h⟩
  | error e =>
    rw [blockStep, hsel] at h
    cases h

/-- A stuck block performs nothing: its step is the environment's move, with the request outstanding. -/
theorem step_of_exec_stuck {s : State} {i : Instr} (hr : (nextMove s).rst = none)
    (hsel : selected (envMoved s) = .ok i) (hexec : exec i (envMoved s) = .refused .stuck) :
    performed? s = none ∧ step s = .next (waiting i (envMoved s)) := by
  constructor
  · refine Option.eq_none_iff_forall_ne_some.mpr fun j hj => ?_
    obtain ⟨-, hsel', u, hu⟩ := performed?_eq_some.mp hj
    obtain rfl : i = j := Except.ok.inj (hsel.symm.trans hsel')
    cases hexec.symm.trans hu
  · rw [step_of_stuck hr ((blockStep_of_selected hsel).trans hexec), stuckIn_of_selected hsel]

theorem ready_of_pending {s : State} {i : Instr} (hi : waits i = true) (hp : s.env.pending = some i) : Ready i s := by
  cases i with
  | idleTick => exact .inl hp
  | banner | cycleStart | reportNodata | reportUpdated => trivial
  | rxByte | collectEnd | crcInit | crcByte | crcFinal => cases hi

/-- A block that waits already has its request outstanding. -/
theorem waiting_of_pending {s : State} {i : Instr} (hp : s.env.pending = some i) : waiting i s = s := by
  rw [waiting, Env.setPending, ← hp]
  rfl

section
variable {s : State} {i : Instr} (hi : waits i = true) (hp : s.env.pending = some i) (hphase : s.phase.toNat ≤ 5)
include hi hp hphase

/-- Inside a wait that the environment does not end, the step is its move alone. -/
theorem step_withheld (hgrant : (nextMove s).grants = false) (hr : (nextMove s).rst = none) :
    performed? s = none ∧ step s = .next (envMoved s) := by
  have hp' : (envMoved s).env.pending = some i := hp
  obtain ⟨hperf, hstep⟩ := step_of_exec_stuck hr (selected_pending hp' hphase)
    (exec_withheld hi (ready_of_pending hi hp') hgrant)
  exact ⟨hperf, hstep.trans (congrArg _ (waiting_of_pending hp'))⟩

/-- While the environment withholds, a run is its moves alone. -/
theorem run_withheld (n : Nat) (hmoves : ∀ k, k < n → (moveAt s k).grants = false ∧ (moveAt s k).rst = none) :
    opsOfRun n s = [] ∧ run n s = .next (envMoved^[n] s) := by
  induction n generalizing s with
  | zero => exact ⟨rfl, rfl⟩
  | succ n ih =>
    obtain ⟨hgrant, hr⟩ := hmoves 0 (Nat.succ_pos n)
    rw [moveAt_zero] at hgrant hr
    obtain ⟨hperf, hstep⟩ := step_withheld hi hp hphase hgrant hr
    obtain ⟨hops, hrun⟩ := ih (s := envMoved s) hp hphase fun k hk =>
      moveAt_succ (envMoved_script s) (envMoved_moves s) k ▸ hmoves (k + 1) (Nat.succ_lt_succ hk)
    constructor
    · rw [opsOfRun_succ hstep, hperf, hops]
      rfl
    · rw [run_succ hstep, hrun, Function.iterate_succ_apply]

end

theorem rxQueue_iterate_envMoved {n : Nat} {s : State} (h : ∀ k, k < n → (moveAt s k).lost = 0) :
    ∃ arrived, (envMoved^[n] s).env.rxQueue = s.env.rxQueue ++ arrived := by
  induction n with
  | zero => exact ⟨[], (List.append_nil _).symm⟩
  | succ n ih =>
    obtain ⟨arrived, hq⟩ := ih fun k hk => h k (Nat.lt_succ_of_lt hk)
    refine ⟨arrived ++ (moveAt s n).arrive, ?_⟩
    rw [Function.iterate_succ_apply', envMoved_rxQueue, nextMove_iterate_envMoved, h n (Nat.lt_succ_self n), hq,
      List.drop_zero, List.append_assoc]

theorem exec_stuck_iff_sends_or_sleeps (i : Instr) (s : State) :
    exec i s = .refused .stuck ↔ s.env.grant = false ∧
      (sends i = true ∨ (i = .idleTick ∧ (s.env.pending = some .idleTick ∨ s.env.rxQueue = []))) := by
  rw [exec_stuck_iff]
  refine and_congr_right' ?_
  cases i <;> simp [waits, sends, Ready]

/-- Settles O46: where an operation is stuck, that none makes a request, and what a wait of any length leaves: the moves
of the environment alone change nothing but the queue. -/
theorem stuckStaysStuck : Obligations.StuckStaysStuck := by
  refine ⟨exec_stuck_iff_sends_or_sleeps, fun i s t h => ?_, fun s hr hblock => ?_,
    fun n s i hp hi hphase hmoves => ?_⟩
  · obtain ⟨-, -, rfl⟩ := exec_next h
    cases hi : waits i with
    | true => exact .inr (after_pending hi s)
    | false => exact .inl (after_pending_kept hi s)
  · obtain ⟨i, hsel, hexec⟩ := selected_of_blockStep_stuck hblock
    obtain ⟨hperf, hstep⟩ := step_of_exec_stuck hr hsel hexec
    exact ⟨hperf, i, hsel, hstep⟩
  · obtain ⟨hops, hrun⟩ := run_withheld ((waits_eq_true i).mpr hi) hp hphase n hmoves
    exact ⟨hops, _, hrun, (iterate_envMoved_keeps (view := fun u => u.env.pending) envMoved_pending n s).trans hp,
      iterate_envMoved_keeps envMoved_crc n s, iterate_envMoved_keeps envMoved_lastCrc n s,
      iterate_envMoved_keeps envMoved_len n s, iterate_envMoved_keeps envMoved_idle n s,
      iterate_envMoved_keeps envMoved_idx n s, iterate_envMoved_keeps envMoved_phase n s,
      iterate_envMoved_keeps envMoved_frame n s,
      iterate_envMoved_keeps (view := fun u => u.env.tx) envMoved_tx n s,
      iterate_envMoved_keeps (view := fun u => u.env.res) envMoved_res n s,
      iterate_envMoved_keeps (view := fun u => u.env.time) envMoved_time n s, rxQueue_iterate_envMoved⟩

/-! ### The reset event -/

/-- What the reset event can leave on the ports: what the abandoned operation left there, if one was selected. -/
theorem resetEvent_effect (s : State) (p : Nat) :
    (∃ sent, (resetEvent s p).env.tx = s.env.tx ++ sent ∧
      (sent = [] ∨ ∃ i, selected s = .ok i ∧ sent <+: messageOf i s)) ∧
    (∃ records, (resetEvent s p).env.res = s.env.res ++ records ∧ records.length ≤ 1) ∧
    s.env.time ≤ (resetEvent s p).env.time ∧
    ((resetEvent s p).env.rxQueue = s.env.rxQueue ∨ (resetEvent s p).env.rxQueue = s.env.rxQueue.tail) ∧
    (p = 0 → (resetEvent s p).env.tx = s.env.tx ∧ (resetEvent s p).env.res = s.env.res ∧
      (resetEvent s p).env.time = s.env.time ∧ (resetEvent s p).env.rxQueue = s.env.rxQueue) := by
  unfold resetEvent
  cases hsel : selected s with
  | ok i =>
    obtain ⟨⟨sent, htx, hsent⟩, hothers⟩ := abandoned_effect i s p
    exact ⟨⟨sent, htx, hsent.imp_right fun h => ⟨i, rfl, h⟩⟩, hothers⟩
  | error e =>
    exact ⟨⟨[], (List.append_nil _).symm, .inl rfl⟩, ⟨[], (List.append_nil _).symm, Nat.zero_le 1⟩, le_rfl, .inl rfl,
      fun _ => ⟨rfl, rfl, rfl, rfl⟩⟩

theorem messageOf_envMoved (i : Instr) (s : State) : messageOf i (envMoved s) = messageOf i s := by
  cases i <;> rfl

/-- Settles O48: the registers are those of reset, the streams by what the reset event can leave on the ports. -/
theorem resetInAnyState : Obligations.ResetInAnyState := by
  intro s p hr
  obtain ⟨⟨sent, htx, hsent⟩, hres, -, hqueue, hnone⟩ := resetEvent_effect (envMoved s) p
  refine ⟨_, step_reset hr, rfl, rfl, rfl, rfl, rfl, rfl, rfl, fun _ => rfl, ⟨sent, htx, ?_⟩, hres, hqueue, hnone⟩
  exact hsent.imp_right fun ⟨i, hsel, h⟩ => ⟨i, hsel, messageOf_envMoved i s ▸ h⟩

/-- Settles O47. -/
theorem resetValues : Obligations.ResetValues := ⟨rfl, rfl, rfl, rfl, rfl, rfl, rfl⟩

/-! ### The streams -/

theorem res_after_grows (i : Instr) (s : State) : ∃ y, (after i s).env.res = s.env.res ++ y := by
  cases i with
  | reportNodata | reportUpdated => exact ⟨_, rfl⟩
  | _ => exact ⟨[], (List.append_nil _).symm⟩

theorem time_after_ge (i : Instr) (s : State) : s.env.time ≤ (after i s).env.time := by
  by_cases hi : i = .idleTick
  · subst hi
    exact Nat.le_succ _
  · exact (after_time hi s).ge

/-- Settles O45: the reset event, an operation and a wait each leave the streams and the time or add to them. -/
theorem streamsOnlyGrow : Obligations.StreamsOnlyGrow := by
  intro s t hstep
  obtain ⟨p, -, rfl⟩ | ⟨-, i, -, hexec | ⟨-, rfl⟩⟩ := step_next_cases hstep
  · obtain ⟨⟨sent, htx, -⟩, ⟨records, hres, -⟩, htime, -⟩ := resetEvent_effect (envMoved s) p
    exact ⟨⟨sent, htx⟩, ⟨records, hres⟩, htime⟩
  · obtain ⟨-, -, rfl⟩ := exec_next hexec
    exact ⟨⟨_, after_tx (envMoved s)⟩, res_after_grows i (envMoved s), time_after_ge i (envMoved s)⟩
  · exact ⟨⟨[], (List.append_nil _).symm⟩, ⟨[], (List.append_nil _).symm⟩, le_rfl⟩

end Sys2Proof.Machine
end

section
/-! PROOFS. The five operations that send or sleep: encoding, selection and effect (41_frame_collector.md R161, R164,
42_sequencer_report.md R191, R193, R194). -/

namespace Sys2Proof.Machine

/-- An operation that its row asks nothing of but the phase is selected exactly in its phase. -/
theorem selected_iff_phase {s : State} {i : Instr} (hp : s.env.pending = none) (hi : ∀ u, Conditions i u) :
    selected s = .ok i ↔ s.phase = phaseOf i :=
  (selected_free_iff hp i).trans (and_iff_left (hi s))

/-- Settles O24: its row, where it is selected, and both answers of the sink. -/
theorem cycleStartEffect : Obligations.CycleStartEffect :=
  ⟨decodeSel_row_iff (r := ⟨.cycleStart, 0x10#7, 0x70#7⟩) (by decide),
    fun _ hp => selected_iff_phase hp fun _ => trivial, fun _ => exec_cycleStart,
    fun _ => exec_withheld (i := .cycleStart) rfl trivial⟩

/-- Settles O34: its row, where it is selected, both answers of the sink, and that no operation writes phase `BOOT`. -/
theorem bannerEffect : Obligations.BannerEffect := by
  refine ⟨decodeSel_row_iff (r := ⟨.banner, 0x00#7, 0x70#7⟩) (by decide),
    fun _ hp => selected_iff_phase hp fun _ => trivial, fun _ => exec_banner,
    fun _ => exec_withheld (i := .banner) rfl trivial, fun i s t _ hexec => ?_⟩
  rw [exec_phase hexec]
  exact phaseAfter_ne_boot i

/-! ### IDLE_TICK -/

theorem cRun_of_idle_threshold {s : State} (h : s.idle.toNat = Config.idleThreshold) : cRun s = false :=
  (cRun_eq_false s).mpr fun hguard => hguard.1.ne h

/-- Settles O26: its row, where it is selected, and both answers of the timer; the 500th makes the guard fail, so the next
operation is COLLECT_END. -/
theorem idleTickEffect : Obligations.IdleTickEffect := by
  refine ⟨decodeSel_row_iff (r := ⟨.idleTick, 0x28#7, 0x7C#7⟩) (by decide), fun s hp => ?_,
    fun s hready hgrant => ?_, fun s hready => exec_withheld (i := .idleTick) rfl hready.symm⟩
  · rw [selected_idleTick_iff hp, cRun_eq_true, and_assoc]
    rfl
  · have hcount : s.idle.toNat ≤ 499 → (ticked s).idle.toNat = s.idle.toNat + 1 := fun hle =>
      idle_add_one_toNat (Nat.lt_succ_of_le hle)
    refine ⟨ticked s, exec_granted (i := .idleTick) hready.symm hgrant, rfl, hcount, fun hlast => ?_⟩
    have hrun : cRun (ticked s) = false := cRun_of_idle_threshold ((hcount hlast.le).trans (congrArg (· + 1) hlast))
    exact ⟨hrun, (selected_collectEnd_iff (s := envMoved (ticked s)) rfl).mpr ⟨rfl, hrun⟩⟩

/-! ### The reports -/

/-- Settles O36: its row, where it is selected, and both answers of the sink; before any updated report since the reset
the value held is the reset value. -/
theorem reportNodataEffect : Obligations.ReportNodataEffect := by
  refine ⟨decodeSel_row_iff (r := ⟨.reportNodata, 0x30#7, 0x72#7⟩) (by decide), fun _ => selected_reportNodata_iff,
    fun s => exec_granted (i := .reportNodata) trivial, fun _ => exec_withheld (i := .reportNodata) rfl trivial,
    fun before s hheld hnone hp hsel => ?_⟩
  obtain ⟨hphase, -⟩ := (selected_reportNodata_iff hp).mp hsel
  have hvalue : s.lastCrc = heldValue before s.env.res := hheld.held (hphase ▸ by decide)
  exact hvalue.trans (heldValue_of_none_new hnone)

/-- The phase in which a new checksum is reported is entered by the operation that computes it. -/
theorem eq_crcFinal_of_phaseAfter {i : Instr} (h : phaseAfter i = Phase.report) : i = .crcFinal := by
  cases i with
  | crcFinal => rfl
  | _ => exact absurd h (by decide)

/-- Settles O37: its row, where it is selected, and both answers of the sink; phase `REPORT` is that of CRC_FINAL, where
the invariant of the pass gives the value. -/
theorem reportUpdatedEffect : Obligations.ReportUpdatedEffect := by
  refine ⟨decodeSel_row_iff (r := ⟨.reportUpdated, 0x50#7, 0x70#7⟩) (by decide),
    fun _ hp => selected_iff_phase hp fun _ => trivial, fun s => exec_granted (i := .reportUpdated) trivial,
    fun _ => exec_withheld (i := .reportUpdated) rfl trivial, fun i s t _ hexec hreport => ?_,
    fun s hpass hp hsel => ?_⟩
  · exact eq_crcFinal_of_phaseAfter ((exec_phase hexec).symm.trans hreport)
  · obtain ⟨-, hlast⟩ := hpass.result (selected_phase hp hsel)
    exact hlast

end Sys2Proof.Machine
end

section
/-! PROOFS. The operations of a trace from its words (30_encoding.md R90, R107). -/

namespace Sys2Proof

/-- Every operation decodes from its own words, whatever the bits its row does not look at. -/
theorem decodesOwnWord (i : Instr) : Laws.DecodesOwnWord.Statement i := by
  cases i with
  | banner => exact Laws.DecodesOwnWord.banner
  | cycleStart => exact Laws.DecodesOwnWord.cycleStart
  | rxByte => exact Laws.DecodesOwnWord.rxByte
  | idleTick => exact Laws.DecodesOwnWord.idleTick
  | collectEnd => exact Laws.DecodesOwnWord.collectEnd
  | crcInit => exact Laws.DecodesOwnWord.crcInit
  | reportNodata => exact Laws.DecodesOwnWord.reportNodata
  | crcByte => exact Laws.DecodesOwnWord.crcByte
  | crcFinal => exact Laws.DecodesOwnWord.crcFinal
  | reportUpdated => exact Laws.DecodesOwnWord.reportUpdated

theorem decodeSel_encodeWith (i : Instr) (x : SelWord) : decodeSel (encodeWith i x) = .ok i :=
  ((decodesOwnWord i).2 x).1

/-- A byte holds a word of seven bits in its low seven, with bit 7 clear (log 18). -/
theorem decodeBytes_setWidth (w : SelWord) (rest : List Byte) :
    decodeBytes (w.setWidth 8 :: rest) = (decodeSel w).map fun i => (i, rest) := by
  have htop : (w.setWidth 8).getLsbD 7 = false := by
    rw [BitVec.getLsbD_setWidth, BitVec.getLsbD_of_ge w 7 le_rfl, Bool.and_false]
  have hlow : (w.setWidth 8).setWidth 7 = w := BitVec.setWidth_setWidth_of_le w (by decide)
  rw [decodeBytes, htop, hlow]
  cases decodeSel w <;> rfl

/-- The host's question about a word of seven bits is the decoder's answer. -/
theorem decodeTableWord_of_lt {w : Nat} (h : w < 128) :
    decodeTableWord 8 w = (decodeSel (BitVec.ofNat 7 w)).toOption := by
  have hmod : w % 2 ^ 8 = w := Nat.mod_eq_of_lt (by omega)
  have hbyte : BitVec.ofNat 8 w = (BitVec.ofNat 7 w).setWidth 8 := (BitVec.setWidth_ofNat_of_le_of_lt (by decide) h).symm
  simp only [decodeTableWord, hmod, if_pos (show w < 256 by omega), hbyte, decodeBytes_setWidth]
  cases decodeSel (BitVec.ofNat 7 w) <;> rfl

/-- Settles O5, by induction on the trace, a byte a line. -/
theorem decodeOfEncodedTrace : Obligations.DecodeOfEncodedTrace := by
  intro trace
  induction trace with
  | nil => rfl
  | cons l rest ih =>
    rw [List.map_cons, decodeTrace, encodeByte, decodeBytes_setWidth, decodeSel_encodeWith, ih]
    rfl

/-- Settles O3: the table's words, each evaluated. -/
theorem tableWordsDecode : Obligations.TableWordsDecode := by
  unfold Obligations.TableWordsDecode
  decide

end Sys2Proof
end

section
/-! PROOFS. The CRC32Engine over GF(2): linearity and the constant residue (40_crc32_engine.md R147), and check values of
`compute`. -/

namespace Sys2Proof.Machine

/-! ### Linearity -/

theorem reflect8_reflect8 (b : Byte) : reflect8 (reflect8 b) = b := BitVec.reverse_reverse_eq

theorem reflect32_reflect32 (v : Word) : reflect32 (reflect32 v) = v := BitVec.reverse_reverse_eq

/-- Each bit of a bit step is an XOR of bits of the register (40_crc32_engine.md R132). -/
theorem bitstep_xor (a b : Word) : bitstep (a ^^^ b) = bitstep a ^^^ bitstep b := by
  apply BitVec.eq_of_getLsbD_eq
  intro i hi
  simp only [BitVec.getLsbD_xor, bitstepBits _ i hi, Bool.and_xor_distrib_left, Bool.and_xor_distrib_right]
  simp only [Bool.xor_assoc, Bool.xor_left_comm]

theorem iterate_bitstep_xor (n : Nat) (a b : Word) : bitstep^[n] (a ^^^ b) = bitstep^[n] a ^^^ bitstep^[n] b :=
  Function.Semiconj₂.iterate (op := fun a b : Word => a ^^^ b) bitstep_xor n a b

theorem byteOperand_zero : byteOperand 0x00#8 = 0#32 := by decide +kernel

theorem bytestep_xor (c e : Word) (b : Byte) : bytestep (c ^^^ e) b = bytestep c b ^^^ bytestep e 0x00#8 := by
  simp only [bytestep_eq_iterate, byteOperand_zero, BitVec.xor_zero]
  rw [← iterate_bitstep_xor, BitVec.xor_assoc, BitVec.xor_comm e, ← BitVec.xor_assoc]

/-- Settles O17. -/
theorem engineIsLinear : Obligations.EngineIsLinear :=
  ⟨reflect8_reflect8, reflect32_reflect32, reflect32_xor, bitstep_xor, bytestep_xor⟩

/-! ### The residue

In the reflected form a byte enters at the bottom, so a word that is XORed into the register is absorbed as its own
bytes are consumed, low byte first. -/

theorem reflectedBitstep_xor (a b : Word) :
    reflectedBitstep (a ^^^ b) = reflectedBitstep a ^^^ reflectedBitstep b := by
  rw [← reflect32_reflect32 a, ← reflect32_reflect32 b, ← reflect32_xor, ← reflect32_bitstep, bitstep_xor,
    reflect32_xor, reflect32_bitstep, reflect32_bitstep]

theorem iterate_reflectedBitstep_xor (n : Nat) (a b : Word) :
    reflectedBitstep^[n] (a ^^^ b) = reflectedBitstep^[n] a ^^^ reflectedBitstep^[n] b :=
  Function.Semiconj₂.iterate (op := fun a b : Word => a ^^^ b) reflectedBitstep_xor n a b

/-- Bit steps over zero bits only shift. -/
theorem iterate_reflectedBitstep_of_zeros (n : Nat) {d : Word} (h : ∀ i, i < n → d.getLsbD i = false) :
    reflectedBitstep^[n] d = d >>> n := by
  induction n generalizing d with
  | zero => exact (BitVec.ushiftRight_zero d).symm
  | succ n ih =>
    have hstep : reflectedBitstep d = d >>> 1 := by
      rw [reflectedBitstep, h 0 (Nat.succ_pos n), if_neg Bool.false_ne_true]
    have hzeros : ∀ i, i < n → (d >>> 1).getLsbD i = false := fun i hi => by
      rw [BitVec.getLsbD_ushiftRight]
      exact h (1 + i) (by omega)
    rw [Function.iterate_succ_apply, hstep, ih hzeros, ← BitVec.shiftRight_add, Nat.add_comm]

/-- The upper bytes of a word, with its low byte cleared. -/
theorem xor_low_byte_getLsbD (v : Word) (i : Nat) :
    (v ^^^ (v.setWidth 8).setWidth 32).getLsbD i = (decide (8 ≤ i) && v.getLsbD i) := by
  rw [BitVec.getLsbD_xor, BitVec.getLsbD_setWidth, BitVec.getLsbD_setWidth]
  by_cases h : i < 8
  · have h32 : i < 32 := by omega
    simp [h, h32]
  · simp [h, Nat.le_of_not_lt h]

/-- A byte step over the low byte of a word that is in the register leaves the rest of the word in it. -/
theorem reflectedBytestep_absorbs (x v : Word) :
    reflectedBytestep (x ^^^ v) (v.setWidth 8) = reflectedBitstep^[8] x ^^^ (v >>> 8) := by
  have hsteps : reflectedBytestep (x ^^^ v) (v.setWidth 8) =
      reflectedBitstep^[8] (x ^^^ (v ^^^ (v.setWidth 8).setWidth 32)) := by
    rw [← BitVec.xor_assoc]
    rfl
  have hrest : (v ^^^ (v.setWidth 8).setWidth 32) >>> 8 = v >>> 8 := by
    apply BitVec.eq_of_getLsbD_eq
    intro i hi
    rw [BitVec.getLsbD_ushiftRight, BitVec.getLsbD_ushiftRight, xor_low_byte_getLsbD,
      decide_eq_true (Nat.le_add_right 8 i), Bool.true_and]
  have hzeros : ∀ i, i < 8 → (v ^^^ (v.setWidth 8).setWidth 32).getLsbD i = false := fun i hi => by
    rw [xor_low_byte_getLsbD, decide_eq_false (Nat.not_le.mpr hi), Bool.false_and]
  rw [hsteps, iterate_reflectedBitstep_xor, iterate_reflectedBitstep_of_zeros 8 hzeros, hrest]

theorem le4_eq_shifts (v : Word) :
    le4 v = [v.setWidth 8, (v >>> 8).setWidth 8, (v >>> 8 >>> 8).setWidth 8, (v >>> 8 >>> 8 >>> 8).setWidth 8] := by
  simp only [le4, ← BitVec.shiftRight_add]
  rfl

/-- The four bytes of a word that is in the register absorb it whole. -/
theorem reflectedRegister_absorbs (x v : Word) :
    reflectedRegister (x ^^^ v) (le4 v) = reflectedBitstep^[32] x := by
  have hgone : v >>> 8 >>> 8 >>> 8 >>> 8 = 0#32 := by
    simp only [← BitVec.shiftRight_add]
    exact BitVec.ushiftRight_eq_zero (by decide)
  simp only [le4_eq_shifts, reflectedRegister, reflectedBytestep_absorbs, hgone, BitVec.xor_zero]
  rfl

theorem reflectedRegister_append (d : Word) (data more : List Byte) :
    reflectedRegister d (data ++ more) = reflectedRegister (reflectedRegister d data) more := by
  induction data generalizing d with
  | nil => rfl
  | cons b rest ih => exact ih (reflectedBytestep d b)

theorem residue_value : reflectedBitstep^[32] Config.finalXor ^^^ Config.finalXor = 0x2144DF1C#32 := by decide +kernel

/-- Settles O18: the register after the data is its checksum XOR `0xFFFFFFFF`; the checksum's bytes absorb the checksum,
and what is left of the register does not depend on the data. -/
theorem residueIsConstant : Obligations.ResidueIsConstant := by
  intro data
  have hcompute : ∀ bytes, compute bytes = reflectedRegister Config.finalXor bytes ^^^ Config.finalXor := fun bytes =>
    (reflectedFormComputesTheSame.2 bytes).2
  have hregister : reflectedRegister Config.finalXor data = Config.finalXor ^^^ compute data := by
    rw [hcompute data, BitVec.xor_comm, BitVec.xor_assoc, BitVec.xor_self, BitVec.xor_zero]
  calc compute (data ++ le4 (compute data))
      = reflectedRegister (Config.finalXor ^^^ compute data) (le4 (compute data)) ^^^ Config.finalXor := by
        rw [hcompute (data ++ _), reflectedRegister_append, hregister]
    _ = reflectedBitstep^[32] Config.finalXor ^^^ Config.finalXor := by rw [reflectedRegister_absorbs]
    _ = 0x2144DF1C#32 := residue_value

/-! ### Check values -/

/-- Settles O15: each value evaluated. -/
theorem computeCheckValues : Obligations.ComputeCheckValues := by
  unfold Obligations.ComputeCheckValues
  decide +kernel

end Sys2Proof.Machine
end

section
/-! PROOFS. The texts of the messages (30_encoding.md R100 to R103), and that a report's text tells its record. -/

namespace Sys2Proof.Machine

theorem updatedMsg_length (v : Word) : (updatedMsg v).length = 36 := by
  simp [updatedMsg, updatedPfx, crlf]

theorem nodataMsg_length (v : Word) : (nodataMsg v).length = 62 := by
  simp [nodataMsg, nodataPfx, crlf]

/-- Settles O38: the constants evaluated character by character, the report messages by the length of their parts. -/
theorem messageTexts : Obligations.MessageTexts :=
  ⟨by decide, by decide, by decide, by decide, rfl, rfl, rfl, rfl, rfl, fun v => ⟨rfl, updatedMsg_length v⟩,
    fun v => ⟨rfl, nodataMsg_length v⟩⟩

/-! ### The digits tell the word -/

/-- The sixteen digits are sixteen characters. -/
theorem hexDigit_injective : Function.Injective hexDigit := by
  have hall : ∀ a b : Fin 16, hexDigit (BitVec.ofFin a) = hexDigit (BitVec.ofFin b) → a = b := by decide
  exact fun a b h => congrArg BitVec.ofFin (hall a.toFin b.toFin h)

theorem hex8_injective : Function.Injective hex8 := by
  intro v w h
  have hdigit : ∀ j, j < 8 → v.extractLsb' (4 * j) 4 = w.extractLsb' (4 * j) 4 := by
    intro j hj
    have hchar := congrArg (fun text => text[7 - j]?) h
    simp only [hex8_getElem? _ (show 7 - j < 8 by omega), Nat.sub_sub_self (Nat.le_of_lt_succ hj)] at hchar
    exact hexDigit_injective (Option.some.inj hchar)
  apply BitVec.eq_of_getLsbD_eq
  intro i hi
  have hbit := congrArg (fun d => d.getLsbD (i % 4)) (hdigit (i / 4) (by omega))
  simpa only [BitVec.getLsbD_extractLsb', decide_eq_true (Nat.mod_lt i (by decide : 0 < 4)), Bool.true_and,
    Nat.div_add_mod] using hbit

theorem updatedMsg_injective : Function.Injective updatedMsg := fun _ _ h =>
  hex8_injective (List.append_cancel_left (List.append_cancel_right h))

theorem nodataMsg_injective : Function.Injective nodataMsg := fun _ _ h =>
  hex8_injective (List.append_cancel_left (List.append_cancel_right h))

/-- Settles O40: the lengths tell the two kinds apart, and the digits the number. -/
theorem reportTextTellsRecord : Obligations.ReportTextTellsRecord := by
  rintro ⟨new, v⟩ ⟨new', w⟩ h
  have hlength := congrArg List.length h
  match new, new' with
  | true, true => exact congrArg _ (updatedMsg_injective h)
  | false, false => exact congrArg _ (nodataMsg_injective h)
  | true, false => exact absurd ((updatedMsg_length v).symm.trans (hlength.trans (nodataMsg_length w))) (by decide)
  | false, true => exact absurd ((nodataMsg_length v).symm.trans (hlength.trans (updatedMsg_length w))) (by decide)

end Sys2Proof.Machine
end

section
/-! PROOFS. The model's own placing of a selection word (log 13): what the block forms of it and runs. -/

namespace Sys2Proof.Machine

/-! ### The condition signals where a word is placed -/

theorem nextMove_placeSel (s : State) (f : Sel) : nextMove (placeSel s f) = EnvMove.quiet := rfl

theorem placed_rxQueue (s : State) (f : Sel) :
    (envMoved (placeSel s f)).env.rxQueue = placedQueue f s.env.rxQueue := by
  rw [envMoved_rxQueue, nextMove_placeSel]
  exact List.append_nil _

theorem placedLen_le (f : Sel) : (placedLen f).toNat ≤ 1 := by
  unfold placedLen
  split
  · decide
  · split <;> decide

theorem placed_cRun (s : State) (f : Sel) : cRun (envMoved (placeSel s f)) = f.cRun := by
  have hlen : (envMoved (placeSel s f)).len.toNat < Config.maxDataLen :=
    (placedLen_le f).trans_lt (by decide)
  have hidle : (envMoved (placeSel s f)).idle = if f.cRun then 0#9 else 500#9 := rfl
  rw [cRun, decide_eq_true hlen, Bool.and_true, hidle]
  cases f.cRun <;> decide

/-- The queue is made to answer the poll as the word says, where one is made. -/
theorem placed_cRx (s : State) (f : Sel) :
    cRx (envMoved (placeSel s f)) = (f.phase == Phase.collect && f.cRun && f.cRx) := by
  have hpoll : pollMade (envMoved (placeSel s f)) = (f.phase == Phase.collect && f.cRun) := by
    rw [pollMade, placed_cRun]
    rfl
  rw [cRx, hpoll, placed_rxQueue, placedQueue]
  cases (f.phase == Phase.collect && f.cRun) with
  | false => rfl
  | true => cases f.cRx <;> cases s.env.rxQueue <;> rfl

/-- The frame placed is empty only where the word says so, but for the one pair of signals that no state has. -/
theorem placed_cNonempty (s : State) (f : Sel) :
    cNonempty (envMoved (placeSel s f)) = (f.cNonempty || (f.cMore && f.phase != Phase.done)) := by
  have hlen : (envMoved (placeSel s f)).len = placedLen f := rfl
  rw [cNonempty, hlen, placedLen]
  cases f.cNonempty with
  | true => rfl
  | false => cases (f.cMore && f.phase != Phase.done) <;> rfl

/-- `idx` is placed below `len` where the word says so and the frame is not empty. -/
theorem placed_cMore (s : State) (f : Sel) :
    cMore (envMoved (placeSel s f)) = (f.cMore && cNonempty (envMoved (placeSel s f))) := by
  have hidx : (envMoved (placeSel s f)).idx = if f.cMore then 0#13 else (envMoved (placeSel s f)).len := rfl
  rw [cMore, cNonempty, hidx]
  cases f.cMore with
  | true => rfl
  | false => exact decide_eq_false (Nat.lt_irrefl _)

/-! ### The word formed and the operation run -/

/-- Settles O6: signal by signal; a well-formed word has no pair of signals that no state has. -/
theorem placedWordIsFormed : Obligations.PlacedWordIsFormed := by
  intro s f hwf
  simp only [Sel.wellFormed, Sel.rxSampled, Sel.moreNonempty, Bool.and_eq_true, Bool.or_eq_true, Bool.not_eq_true'] at hwf
  obtain ⟨⟨-, hrx⟩, hmore⟩ := hwf
  have hnonempty : cNonempty (envMoved (placeSel s f)) = f.cNonempty := by
    rw [placed_cNonempty]
    rcases hmore with h | h <;> simp [h]
  have hcRx : cRx (envMoved (placeSel s f)) = f.cRx := by
    rw [placed_cRx]
    rcases hrx with h | ⟨hphase, hrun⟩
    · rw [h, Bool.and_false]
    · rw [hphase, hrun, Bool.true_and, Bool.true_and]
  have hcMore : cMore (envMoved (placeSel s f)) = f.cMore := by
    rw [placed_cMore, hnonempty]
    rcases hmore with h | h <;> simp [h]
  have hfields : selFields (envMoved (placeSel s f)) = f := by
    rw [selFields, placed_cRun, hcRx, hnonempty, hcMore]
    rfl
  exact ⟨hfields, congrArg Sel.word hfields⟩

/-- The signals that a word's phase looks at are placed as the word has them, also in a word that no state forms. -/
theorem opOfFields_placed (s : State) (f : Sel) : opOfFields (selFields (envMoved (placeSel s f))) = opOfFields f := by
  have hphase : (selFields (envMoved (placeSel s f))).phase = f.phase := rfl
  have hrun : (selFields (envMoved (placeSel s f))).cRun = f.cRun := placed_cRun s f
  have hrx : (selFields (envMoved (placeSel s f))).cRx = (f.phase == Phase.collect && f.cRun && f.cRx) :=
    placed_cRx s f
  have hnonempty : (selFields (envMoved (placeSel s f))).cNonempty =
      (f.cNonempty || (f.cMore && f.phase != Phase.done)) := placed_cNonempty s f
  have hmore : (selFields (envMoved (placeSel s f))).cMore =
      (f.cMore && (f.cNonempty || (f.cMore && f.phase != Phase.done))) :=
    (placed_cMore s f).trans (congrArg (f.cMore && ·) hnonempty)
  by_cases hlegal : f.phase.toNat ≤ 5
  · rcases phase_cases f.phase hlegal with hp | hp | hp | hp | hp | hp
    case inr.inr.inl => cases hr : f.cRun <;> simp [opOfFields, hphase, hrun, hrx, hp, hr]
    case inr.inr.inr.inl => simp [opOfFields, hphase, hnonempty, hp]
    case inr.inr.inr.inr.inl => cases hm : f.cMore <;> simp [opOfFields, hphase, hmore, hp, hm]
    all_goals simp [opOfFields, hphase, hp]
  · rw [opOfFields_reserved (Nat.lt_of_not_le hlegal), opOfFields_reserved (Nat.lt_of_not_le (hphase ▸ hlegal))]

theorem withFetchWord_of_lt (s : State) {w : Nat} (h : w < 128) :
    s.withFetchWord 8 w = placeSel s (Sel.ofWord (BitVec.ofNat 7 w)) := by
  have hmod : w % 2 ^ 8 = w := Nat.mod_eq_of_lt (by omega)
  simp only [State.withFetchWord, placeTableWord, hmod, if_pos h]

/-- Settles O7: the operation placed is selected, since the signals that its row looks at are placed; it is not stuck,
since the move placed ends every wait. -/
theorem placedWordRuns : Obligations.PlacedWordRuns := by
  intro s w i hw hdecode
  rw [decodeTableWord_of_lt hw] at hdecode
  have hop : decodeSel (BitVec.ofNat 7 w) = .ok i := by
    cases h : decodeSel (BitVec.ofNat 7 w) with
    | ok j => exact congrArg _ (Option.some.inj ((congrArg Except.toOption h).symm.trans hdecode))
    | error e => cases (congrArg Except.toOption h).symm.trans hdecode
  rw [withFetchWord_of_lt s hw]
  have hsel : selected (envMoved (placeSel s (Sel.ofWord (BitVec.ofNat 7 w)))) = .ok i := by
    rw [selected_free rfl, opOfFields_placed, ← decodeSel_eq_opOfFields, hop]
  have hblock := blockStep_of_selected hsel
  refine ⟨hsel, (step_of_blockStep rfl fun hstuck => ?_).trans hblock⟩
  obtain ⟨hgrant, -⟩ := (exec_stuck_iff _ _).mp (hblock.symm.trans hstuck)
  cases hgrant

end Sys2Proof.Machine
end

section
/-! PROOFS. How long a collection lasts, and what it is in silence (41_frame_collector.md R170,
70_reset_and_hazards.md R266). -/

namespace Sys2Proof.Machine

theorem pollOps_length (answers : List (Option Byte)) :
    (answers.map pollOp ++ [Instr.collectEnd]).length = answers.length + 1 := by
  simp

theorem pollsLeft_start {s : State} (hlen : s.len = 0#13) (hidle : s.idle = 0#9) : pollsLeft s = 2048000 := by
  rw [pollsLeft, hlen, hidle]
  rfl

/-- Settles O30: the polls that are left, and COLLECT_END. -/
theorem everyCollectionEnds : Obligations.EveryCollectionEnds := by
  intro s hphase hp hlen hidle hfair
  have hleft : pollsLeft s = (4096 - s.len.toNat) * 500 - s.idle.toNat := rfl
  have hless : pollsLeft s ≤ (4096 - s.len.toNat) * 500 := Nat.sub_le _ _
  obtain ⟨answers, t, hle, h⟩ := exists_collects hp hphase fun k hk => hfair k (by omega)
  refine ⟨answers.length + 1, t, by omega, by omega, ?_, h.ended⟩
  rw [← pollOps_length]
  exact h.performs.ends

/-- Where nothing is queued or arrives, each poll is an `IDLE_TICK` until the 500th. -/
theorem performs_silence {s : State} {m : Nat} (hp : s.env.pending = none) (hphase : s.phase = Phase.collect)
    (hlen : s.len = 0#13) (hq : s.env.rxQueue = []) (hcount : s.idle.toNat + m = Config.idleThreshold)
    (hmoves : ∀ k, k < m → EnvMove.fair (moveAt s k) = true ∧ (moveAt s k).arrive = [])
    (hlast : (moveAt s m).rst = none) :
    ∃ t, Performs s (List.replicate m .idleTick ++ [.collectEnd]) t ∧ t.phase = Phase.done ∧ t.len = 0#13 ∧
      t.idle = 500#9 ∧ t.env.time = s.env.time + m := by
  induction m generalizing s with
  | zero =>
    have hrun : cRun s = false := cRun_of_idle_threshold hcount
    refine ⟨_, .cons (moveAt_zero s ▸ hlast)
      ((selected_collectEnd_iff (s := envMoved s) hp).mpr ⟨hphase, hrun⟩) (exec_collectEnd (envMoved s)) (.nil _),
      rfl, hlen, BitVec.eq_of_toNat_eq hcount, rfl⟩
  | succ m ih =>
    have hidle : s.idle.toNat < Config.idleThreshold := by omega
    have hrun : cRun s = true := (cRun_eq_true s).mpr ⟨hidle, by rw [hlen]; decide⟩
    have hfair : FairFor 1 s := fun k hk => (hmoves k (by omega)).1
    have hq' : (envMoved s).env.rxQueue = [] := by
      obtain ⟨-, harrive⟩ := hmoves 0 (Nat.succ_pos m)
      rw [envMoved_rxQueue, hq, List.drop_nil, ← moveAt_zero, harrive]
      rfl
    have hahead : ∀ k, moveAt (ticked (envMoved s)) k = moveAt s (k + 1) := moveAt_succ rfl rfl
    have hidle' : (ticked (envMoved s)).idle.toNat = s.idle.toNat + 1 := idle_add_one_toNat hidle
    obtain ⟨t, hperf, hdone, hlen', hend, htime⟩ := ih (s := ticked (envMoved s)) rfl rfl hlen hq' (by omega)
      (fun k hk => hahead k ▸ hmoves (k + 1) (Nat.succ_lt_succ hk)) (hahead m ▸ hlast)
    have htime' : (ticked (envMoved s)).env.time = s.env.time + 1 := rfl
    exact ⟨t, .cons hfair.not_reset ((selected_idleTick_iff (s := envMoved s) hp).mpr ⟨hphase, hrun, hq'⟩)
      (exec_idleTick hq' hfair.grants) hperf, hdone, hlen', hend, by omega⟩

/-- Settles O32: the silence from the start of a collection. -/
theorem silentCollectionIs500Sleeps : Obligations.SilentCollectionIs500Sleeps := by
  intro s hphase hp hlen hidle hq hmoves hlast
  obtain ⟨t, ⟨hends, hops⟩, hdone, hlen', hidle', htime⟩ :=
    performs_silence (m := 500) hp hphase hlen hq (by rw [hidle]; rfl) hmoves hlast
  rw [List.length_append, List.length_replicate] at hends hops
  exact ⟨hops, t, hends, hdone, hlen', hidle', htime⟩

end Sys2Proof.Machine
end

section
/-! PROOFS. One whole cycle, the runs of its parts one after the other (42_sequencer_report.md R199). -/

namespace Sys2Proof.Machine

/-! ### Runs one after the other -/

theorem run_succ_next {n : Nat} {s t : State} (h : run (n + 1) s = .next t) :
    ∃ u, step s = .next u ∧ run n u = .next t := by
  cases hstep : step s with
  | next u => exact ⟨u, rfl, (run_succ hstep n).symm.trans h⟩
  | fault f =>
    rw [run, hstep] at h
    cases h
  | refused r =>
    rw [run, hstep] at h
    cases h

theorem run_add {m : Nat} {s u : State} (h : run m s = .next u) (n : Nat) :
    run (m + n) s = run n u ∧ opsOfRun (m + n) s = opsOfRun m s ++ opsOfRun n u := by
  induction m generalizing s with
  | zero =>
    obtain rfl : s = u := Host.Outcome.next.inj h
    rw [Nat.zero_add]
    exact ⟨rfl, rfl⟩
  | succ m ih =>
    obtain ⟨v, hstep, hrest⟩ := run_succ_next h
    obtain ⟨hrun, hops⟩ := ih hrest
    rw [Nat.add_right_comm, run_succ hstep, opsOfRun_succ hstep, opsOfRun_succ hstep, List.append_assoc]
    exact ⟨hrun, congrArg _ hops⟩

theorem Performs.append {s u t : State} {ops ops' : List Instr} (h : Performs s ops u) (h' : Performs u ops' t) :
    Performs s (ops ++ ops') t := by
  obtain ⟨hrun, hops⟩ := run_add h.ends ops'.length
  rw [← List.length_append] at hrun hops
  exact ⟨hrun.trans h'.ends, hops.trans (by rw [h.performed, h'.performed])⟩

/-- Every step takes one move of the environment, and writes nothing else that the moves ahead depend on. -/
theorem step_takes_move {s t : State} (h : step s = .next t) :
    t.env.script = s.env.script.tail ∧ t.env.moves = s.env.moves + 1 := by
  obtain ⟨p, -, rfl⟩ | ⟨-, i, -, hexec | ⟨-, rfl⟩⟩ := step_next_cases h
  · exact ⟨resetEvent_script (envMoved s) p, resetEvent_moves (envMoved s) p⟩
  · obtain ⟨-, -, rfl⟩ := exec_next hexec
    obtain ⟨-, hscript, hmoves, -⟩ := after_environment i (envMoved s)
    exact ⟨hscript, hmoves⟩
  · exact ⟨rfl, rfl⟩

/-- Where the environment ends every wait, no request is outstanding after a step. -/
theorem step_pending_of_grants {s t : State} (hp : s.env.pending = none) (hgrant : (nextMove s).grants = true)
    (h : step s = .next t) : t.env.pending = none := by
  obtain ⟨p, -, rfl⟩ | ⟨-, i, -, hexec | ⟨hstuck, -⟩⟩ := step_next_cases h
  · rfl
  · obtain ⟨-, -, rfl⟩ := exec_next hexec
    cases hi : waits i with
    | true => exact after_pending hi (envMoved s)
    | false => exact (after_pending_kept hi (envMoved s)).trans hp
  · obtain ⟨hwithheld, -⟩ := (exec_stuck_iff i (envMoved s)).mp hstuck
    exact absurd (hwithheld.symm.trans hgrant) Bool.false_ne_true

/-- After a run under fair moves the moves ahead are fair and no request is outstanding, if it was so before. -/
theorem run_fair {n m : Nat} {s t : State} (hfair : FairFor (n + m) s) (hp : s.env.pending = none)
    (h : run n s = .next t) : FairFor m t ∧ t.env.pending = none := by
  induction n generalizing s with
  | zero =>
    obtain rfl : s = t := Host.Outcome.next.inj h
    exact ⟨Nat.zero_add m ▸ hfair, hp⟩
  | succ n ih =>
    rw [Nat.add_right_comm] at hfair
    obtain ⟨v, hstep, hrest⟩ := run_succ_next h
    obtain ⟨hscript, hmoves⟩ := step_takes_move hstep
    exact ih (hfair.tail hscript hmoves) (step_pending_of_grants hp hfair.grants hstep) hrest

theorem FairFor.mono {n m : Nat} {s : State} (h : FairFor n s) (hle : m ≤ n) : FairFor m s := fun k hk =>
  h k (hk.trans_le hle)

theorem FairFor.noReset {n : Nat} {s : State} (h : FairFor n s) : NoResetFor n s := by
  intro k hk
  have hfair := h k hk
  rw [EnvMove.fair, Bool.and_eq_true, Option.isNone_iff_eq_none] at hfair
  exact hfair.2

/-! ### The big-step forms -/

/-- A collection yields no more than fits in `FRAME`. -/
theorem collectFrom_length_le {answers : List (Option Byte)} {frame yielded : List Byte} {idle n k : Nat}
    (hle : frame.length ≤ Config.maxDataLen) (h : collectFrom frame idle n answers = some (yielded, k)) :
    yielded.length ≤ Config.maxDataLen := by
  induction answers generalizing frame idle n with
  | nil =>
    rw [collectFrom] at h
    split at h
    · cases h
    · cases h
      exact hle
  | cons a rest ih =>
    by_cases hguard : idle < Config.idleThreshold ∧ frame.length < Config.maxDataLen
    · cases a with
      | some b =>
        rw [collectFrom_byte hguard] at h
        exact ih ((List.length_append (as := frame) (bs := [b])).trans_le hguard.2) h
      | none =>
        rw [collectFrom_silence hguard] at h
        exact ih hle h
    · rw [collectFrom_end hguard] at h
      cases h
      exact hle

theorem cycleOf_tx (lastCrc : Word) (frame : List Byte) :
    (cycleOf lastCrc frame).tx = readyMsg ++ reportMsg (cycleOf lastCrc frame).record := by
  cases frame <;> rfl

/-! ### The report of a cycle -/

/-- The operations of a cycle after its collection (30_encoding.md R108). -/
def reportOps (len : Nat) : List Instr :=
  if len = 0 then [.reportNodata] else computeOps len ++ [.reportUpdated]

/-- From the end of the collection the report leads to `t`, with the frame and the checksum of before. -/
structure Reports (u t : State) : Prop where
  performs : Performs u (reportOps u.len.toNat) t
  phase : t.phase = Phase.idle
  lastCrc : t.lastCrc = (cycleOf u.lastCrc (frameBytes u)).lastCrc
  tx : t.env.tx = u.env.tx ++ reportMsg (cycleOf u.lastCrc (frameBytes u)).record
  res : t.env.res = u.env.res ++ [(cycleOf u.lastCrc (frameBytes u)).record]

section
variable {u : State} (hphase : u.phase = Phase.done) (hp : u.env.pending = none)
include hphase hp

/-- An empty frame is reported at once, with the checksum held. -/
theorem reports_nodata (hlen : u.len.toNat = 0) (hfair : FairFor 1 u) :
    Reports u (reported (envMoved u) { isNew := false, crc := u.lastCrc }) := by
  have hempty : frameBytes u = [] := (frameBytes_eq_nil_iff u).mpr hlen
  have hsel : selected (envMoved u) = .ok .reportNodata :=
    (selected_reportNodata_iff (s := envMoved u) hp).mpr ⟨hphase, hlen⟩
  have hexec : exec .reportNodata (envMoved u) = .next (after .reportNodata (envMoved u)) :=
    exec_granted trivial hfair.grants
  constructor
  · rw [reportOps, if_pos hlen]
    exact .cons hfair.not_reset hsel hexec (.nil _)
  · rfl
  · rw [hempty]
    rfl
  · rw [hempty]
    rfl
  · rw [hempty]
    rfl

/-- A frame that is not empty is reported after the pass, with its own checksum. -/
theorem reports_updated (hne : u.len.toNat ≠ 0) (hlen : u.len.toNat ≤ Config.maxDataLen)
    (hfair : FairFor (u.len.toNat + 3) u) :
    Reports u (reported (envMoved (passEnd u)) { isNew := true, crc := compute (frameBytes u) }) := by
  have hcycle : cycleOf u.lastCrc (frameBytes u) =
      { lastCrc := compute (frameBytes u), tx := readyMsg ++ updatedMsg (compute (frameBytes u))
        record := { isNew := true, crc := compute (frameBytes u) } } := by
    cases hframe : frameBytes u with
    | nil => exact absurd ((frameBytes_eq_nil_iff u).mp hframe) hne
    | cons b rest => rfl
  have hpass : Performs u (computeOps u.len.toNat) (passEnd u) :=
    performs_pass hp hlen hphase (Nat.pos_of_ne_zero hne) (hfair.mono (Nat.le_succ _)).noReset
  obtain ⟨hfair', hp'⟩ := run_fair (m := 1) (by rw [computeOps_length]; exact hfair) hp hpass.ends
  have hsel : selected (envMoved (passEnd u)) = .ok .reportUpdated :=
    selected_report (s := envMoved (passEnd u)) hp' rfl
  have hexec : exec .reportUpdated (envMoved (passEnd u)) = .next (after .reportUpdated (envMoved (passEnd u))) :=
    exec_granted trivial hfair'.grants
  have htx : (passEnd u).env.tx = u.env.tx := iterate_envMoved_keeps (view := fun v => v.env.tx) envMoved_tx _ u
  have hres : (passEnd u).env.res = u.env.res := iterate_envMoved_keeps (view := fun v => v.env.res) envMoved_res _ u
  constructor
  · rw [reportOps, if_neg hne]
    exact hpass.append (.cons hfair'.not_reset hsel hexec (.nil _))
  · rfl
  · rw [hcycle]
    rfl
  · rw [hcycle, ← htx]
    rfl
  · rw [hcycle, ← hres]
    rfl

/-- The dispatch on the frame being empty or not (42_sequencer_report.md R192). -/
theorem exists_reports (hlen : u.len.toNat ≤ Config.maxDataLen) (hfair : FairFor (u.len.toNat + 3) u) :
    ∃ t, Reports u t := by
  by_cases hempty : u.len.toNat = 0
  · exact ⟨_, reports_nodata hphase hp hempty (hfair.mono (by omega))⟩
  · exact ⟨_, reports_updated hphase hp hempty hlen hfair⟩

end

/-! ### The whole cycle -/

theorem performs_cycleStart {s : State} (hphase : s.phase = Phase.idle) (hp : s.env.pending = none)
    (hfair : FairFor 1 s) : Performs s [.cycleStart] (cycleStarted (envMoved s)) :=
  .cons hfair.not_reset (selected_idle (s := envMoved s) hp hphase) (exec_cycleStart hfair.grants) (.nil _)

/-- A collection that begins with nothing collected yields what `collect` yields, and no more than `FRAME` holds. -/
theorem Collects.collect_eq {s t : State} {answers : List (Option Byte)} (h : Collects s answers t)
    (hlen : s.len = 0#13) (hidle : s.idle = 0#9) :
    collect answers = some (frameBytes t, answers.length) ∧ t.len.toNat ≤ Config.maxDataLen := by
  have hempty : frameBytes s = [] := (frameBytes_eq_nil_iff s).mpr (by rw [hlen]; rfl)
  have hyields : collectFrom [] 0 0 answers = some (frameBytes t, answers.length) := by
    have hyields := h.yields 0
    rwa [hempty, hidle, Nat.zero_add] at hyields
  exact ⟨hyields, frameBytes_length t ▸ collectFrom_length_le (Nat.zero_le _) hyields⟩

/-- Settles O42: the prompt, the collection and the report one after the other. The fair moves of the statement are those
of the longest cycle: 1 prompt, 2048000 polls, COLLECT_END, a pass over 4096 bytes and its report. -/
theorem cycleRefinesBigStep : Obligations.CycleRefinesBigStep := by
  intro s hphase hp hfair
  have hstart := performs_cycleStart hphase hp (hfair.mono (by decide))
  obtain ⟨hfair1, hp1⟩ := run_fair (n := 1) (m := 2052100) hfair hp hstart.ends
  have hleft : pollsLeft (cycleStarted (envMoved s)) = 2048000 := pollsLeft_start rfl rfl
  obtain ⟨answers, u, hle, hcollects⟩ := exists_collects hp1 rfl (hfair1.mono (by rw [hleft]; decide))
  rw [hleft] at hle
  obtain ⟨hcollect, hlen⟩ := hcollects.collect_eq rfl rfl
  rw [Config.maxDataLen] at hlen
  have hends := hcollects.performs.ends
  rw [pollOps_length] at hends
  obtain ⟨hfair2, hp2⟩ := run_fair (m := 4099) (hfair1.mono (by omega)) hp1 hends
  obtain ⟨t, hreports⟩ := exists_reports hcollects.ended hp2 hlen (hfair2.mono (by omega))
  have hcycle : Performs s (cycleOps answers (frameBytes u).length) t := by
    rw [frameBytes_length]
    exact (hstart.append hcollects.performs).append hreports.performs
  have hkept := hcollects.kept
  simp only [untouched, Prod.mk.injEq] at hkept
  obtain ⟨-, -, hlast, htx, hres⟩ := hkept
  have hlast : u.lastCrc = s.lastCrc := hlast
  have htx : u.env.tx = s.env.tx ++ readyMsg := htx
  have hres : u.env.res = s.env.res := hres
  refine ⟨cycleStarted (envMoved s), answers.length, frameBytes u, (cycleOps answers (frameBytes u).length).length, t,
    hstart.ends, ?_⟩
  rw [hcollects.given, cycleOf_tx, ← hlast, ← List.append_assoc, ← htx, ← hres]
  exact ⟨hcollect, hle, rfl, hcycle.ends, hreports.phase, hcycle.performed, hreports.lastCrc, hreports.tx,
    hreports.res⟩

end Sys2Proof.Machine
end
